-- ==== Sys2Proof/Word.lean ====
section
/-! DEFINITION. The plain data of the core: bytes, nibbles, command words, bus values, Blocks, slots and key states. -/

namespace Sys2Proof

/-- A byte, bits 7 down to 0 (R9). -/
abbrev Byte := BitVec 8

/-- A nibble, bits 3 down to 0 (R9). -/
abbrev Nibble := BitVec 4

/-- A command word `cmd[15:0]` (R70). -/
abbrev CmdWord := BitVec 16

/-- A value on the 128-bit bus `wdata` or `rdata` (R8, R54). -/
abbrev Bus := BitVec 128

/-- The index of one of the two key-state slots (R19, R29). -/
inductive Slot where
  | zero
  | one
  deriving DecidableEq, Repr, Inhabited

/-- A Block: eight bytes in order, never an integer (R10, D29). `bi` is the rule's `X[i]`. -/
structure Block where
  b0 : Byte
  b1 : Byte
  b2 : Byte
  b3 : Byte
  b4 : Byte
  b5 : Byte
  b6 : Byte
  b7 : Byte
  deriving DecidableEq, Repr, Inhabited

/-- A key state: the two slots, slot 0 holding bytes 0..7 and slot 1 bytes 8..15 (R21). -/
structure KeyState where
  slot0 : Block
  slot1 : Block
  deriving DecidableEq, Repr, Inhabited

end Sys2Proof
end

