-- ==== Sys2Proof/Syntax.lean ====
section
/-! DEFINITION. The commands of KMC version 1, one constructor per row of the opcode table (R74). -/

namespace Sys2Proof

/-- A decoded command. The payload of LDK and LDB is not part of the command word: it stands on `wdata` (R70). -/
inductive Instr where
  /-- LDK: load the key state (R180). -/
  | ldk
  /-- LDB: load the data block (R181). -/
  | ldb
  /-- RDK: read the key state (R182). -/
  | rdk
  /-- RDB: read the data block (R183). -/
  | rdb
  /-- SUB imm8: substitute one byte (R110). -/
  | sub (imm8 : Byte)
  /-- SUBBLK: substitute every byte of BLK (R111). -/
  | subblk
  /-- RCB round, index: one round-constant byte (R112). -/
  | rcb (round index : Nat)
  /-- STEPF s, r: one forward step of the key schedule (R124). -/
  | stepf (s : Slot) (r : Nat)
  /-- STEPB s, r: one backward step of the key schedule (R125). -/
  | stepb (s : Slot) (r : Nat)
  /-- ESK: derive the encrypt start key (R141). -/
  | esk
  /-- DSK: derive the decrypt start key from the raw key (R142). -/
  | dsk
  /-- DSKE: derive the decrypt start key from the encrypt start key (R143). -/
  | dske
  /-- ENC: encrypt BLK (R155). -/
  | enc
  /-- DEC: decrypt BLK (R161). -/
  | dec
  deriving DecidableEq, Repr

end Sys2Proof
end

