-- ==== Sys2Proof/WellFormed.lean ====
section
/-! DEFINITION. Which commands the command word can express: the operand ranges of the encoding fields (R71, R72). A round operand 9..15 is well formed: it is encodable and raises ROUND_RANGE when accepted (R75). -/

namespace Sys2Proof

/-- The operands of the command fit their fields: `round` and `r` 4 bits, `index` 3 bits (R72). -/
def Instr.wellFormed : Instr → Bool
  | .rcb round index => decide (round < 16) && decide (index < 8)
  | .stepf _ r => decide (r < 16)
  | .stepb _ r => decide (r < 16)
  | .ldk | .ldb | .rdk | .rdb | .sub _ | .subblk | .esk | .dsk | .dske | .enc | .dec => true

end Sys2Proof
end

