-- ==== Sys2Proof/Decode.lean ====
section
/-! DEFINITION. Decoding of a command word (R77), total on all 16-bit words, and after it the encoder (R71, R74) and the rows of the opcode table. -/

namespace Sys2Proof

/-- Why a word is reserved (R75). -/
inductive Reserved where
  /-- The opcode is 0x0 or 0xF. -/
  | opcode (op : BitVec 4)
  /-- A must-be-zero bit of the operand field of this opcode is set. -/
  | mustBeZero (op : BitVec 4)
  deriving DecidableEq, Repr

/-- The result of decoding: a command, or a reserved word by name. -/
inductive Decoded where
  | command (i : Instr)
  | reserved (r : Reserved)
  deriving DecidableEq, Repr

/-- The opcode field `cmd[15:12]` (R70). -/
def opcodeField (w : CmdWord) : BitVec 4 := w.extractLsb' 12 4

/-- The operand field `cmd[11:0]` (R70). -/
def operandField (w : CmdWord) : BitVec 12 := w.extractLsb' 0 12

/-- The slot that a slot bit names (R72). -/
def slotOfBit (b : Bool) : Slot := if b then .one else .zero

/-- The bit that names a slot (R72). -/
def bitOfSlot : Slot → Nat
  | .zero => 0
  | .one => 1

/-- A command of format Z: the whole operand field must be zero (R71). -/
def decodeZ (w : CmdWord) (i : Instr) : Decoded :=
  if operandField w = 0 then .command i else .reserved (.mustBeZero (opcodeField w))

/-- SUB, format I8: `imm8 = cmd[7:0]`, `cmd[11:8]` must be zero (R71, R72). -/
def decodeI8 (w : CmdWord) : Decoded :=
  if w.extractLsb' 8 4 = 0 then .command (.sub (w.extractLsb' 0 8))
  else .reserved (.mustBeZero (opcodeField w))

/-- RCB, format N7: `round = cmd[6:3]`, `index = cmd[2:0]`, `cmd[11:7]` must be zero (R71, R72). -/
def decodeN7 (w : CmdWord) : Decoded :=
  if w.extractLsb' 7 5 = 0 then
    .command (.rcb (w.extractLsb' 3 4).toNat (w.extractLsb' 0 3).toNat)
  else .reserved (.mustBeZero (opcodeField w))

/-- STEPF and STEPB, format ST: `s = cmd[4]`, `r = cmd[3:0]`, `cmd[11:5]` must be zero (R71, R72). -/
def decodeST (w : CmdWord) (mk : Slot → Nat → Instr) : Decoded :=
  if w.extractLsb' 5 7 = 0 then
    .command (mk (slotOfBit (w.getLsbD 4)) (w.extractLsb' 0 4).toNat)
  else .reserved (.mustBeZero (opcodeField w))

/-- The decode function of R77. -/
def decode (w : CmdWord) : Decoded :=
  match (opcodeField w).toNat with
  | 0x1 => decodeZ w .ldk
  | 0x2 => decodeZ w .ldb
  | 0x3 => decodeZ w .rdk
  | 0x4 => decodeZ w .rdb
  | 0x5 => decodeI8 w
  | 0x6 => decodeZ w .subblk
  | 0x7 => decodeN7 w
  | 0x8 => decodeST w .stepf
  | 0x9 => decodeST w .stepb
  | 0xA => decodeZ w .esk
  | 0xB => decodeZ w .dsk
  | 0xC => decodeZ w .dske
  | 0xD => decodeZ w .enc
  | 0xE => decodeZ w .dec
  | _ => .reserved (.opcode (opcodeField w))

/-- What the decoder reads from a row's word, bits numbered as the opcode table numbers them. The command word is one 16-bit word on its own bus (R54, R70), so no byte order enters; more than 16 bits is no command. -/
def decodeTableWord (nbits w : Nat) : Option Instr :=
  if nbits ≤ 16 then
    match decode (BitVec.ofNat 16 (w % 2 ^ nbits)) with
    | .command i => some i
    | .reserved _ => none
  else none

/-- A row of the opcode map (R74): a word encodes the row's command if and only if `w &&& mask = pattern`. -/
structure OpcodeRow where
  mnemonic : String
  pattern : CmdWord
  mask : CmdWord
  deriving DecidableEq, Repr

/-- The row of R74 that a command belongs to. -/
def Instr.row : Instr → OpcodeRow
  | .ldk => ⟨"LDK", 0x1000, 0xFFFF⟩
  | .ldb => ⟨"LDB", 0x2000, 0xFFFF⟩
  | .rdk => ⟨"RDK", 0x3000, 0xFFFF⟩
  | .rdb => ⟨"RDB", 0x4000, 0xFFFF⟩
  | .sub _ => ⟨"SUB", 0x5000, 0xFF00⟩
  | .subblk => ⟨"SUBBLK", 0x6000, 0xFFFF⟩
  | .rcb _ _ => ⟨"RCB", 0x7000, 0xFF80⟩
  | .stepf _ _ => ⟨"STEPF", 0x8000, 0xFFE0⟩
  | .stepb _ _ => ⟨"STEPB", 0x9000, 0xFFE0⟩
  | .esk => ⟨"ESK", 0xA000, 0xFFFF⟩
  | .dsk => ⟨"DSK", 0xB000, 0xFFFF⟩
  | .dske => ⟨"DSKE", 0xC000, 0xFFFF⟩
  | .enc => ⟨"ENC", 0xD000, 0xFFFF⟩
  | .dec => ⟨"DEC", 0xE000, 0xFFFF⟩

/-- The operand bits of a command's word, as a number below 4096 when the command is well formed (R72). -/
def Instr.operandBits : Instr → Nat
  | .sub imm8 => imm8.toNat
  | .rcb round index => 8 * round + index
  | .stepf s r => 16 * bitOfSlot s + r
  | .stepb s r => 16 * bitOfSlot s + r
  | .ldk | .ldb | .rdk | .rdb | .subblk | .esk | .dsk | .dske | .enc | .dec => 0

/-- The word of a well-formed command: the row's pattern with the operand bits put in (R71, R74). -/
def encode (i : Instr) : CmdWord := i.row.pattern ||| BitVec.ofNat 16 i.operandBits

/-- The opcode map of R74, row by row. -/
def opcodeMap : List OpcodeRow :=
  [ Instr.row .ldk, Instr.row .ldb, Instr.row .rdk, Instr.row .rdb, Instr.row (.sub 0),
    Instr.row .subblk, Instr.row (.rcb 0 0), Instr.row (.stepf .zero 0), Instr.row (.stepb .zero 0),
    Instr.row .esk, Instr.row .dsk, Instr.row .dske, Instr.row .enc, Instr.row .dec ]

end Sys2Proof
end

