-- ==== Sys2Proof/Config.lean ====
section
/-! DEFINITION. What is fixed for the machine: its geometry, the type of the parameters the spec leaves to the design, and the free values (register contents after an in-run reset). The parameter values the machine runs with stand in Machine/Reference.lean. -/

namespace Sys2Proof.Config

/-- Block size in bytes (R6). -/
def B : Nat := 8

/-- Key size in bytes, 2B (R6). -/
def keyLen : Nat := 2 * B

/-- Round count; a round index is an integer in [0, R] (R6). -/
def R : Nat := 8

/-- Number of key-state slots (R6). -/
def nSlot : Nat := 2

/-- The parameters of the model (R7). The spec fixes each one's type and contract, not its value; the contracts stand as named properties in Safety.lean (R197). -/
structure Params where
  /-- The 16-entry table: high nibble of `T x` is box P at x, low nibble box Q (R101). -/
  T : Nibble → Byte
  /-- The fixed cross-wiring of the eight bits of (hi, lo) (R103). -/
  wire : Nibble → Nibble → Nibble × Nibble
  /-- The reference 256-entry substitution table (R105), a device of the specification that the core does not store (R32). -/
  sref : Byte → Byte
  /-- The linear diffusion layer (R192). -/
  diffuse : Block → Block
  /-- `RT X K r`, the encryption round transformation (R194). -/
  rt : Block → Block → Nat → Block
  /-- `IRT X K r`, its inverse in the first argument (R195). -/
  irt : Block → Block → Nat → Block

/-- FREE VALUE: the contents of KS after the n-th reset of a run, given the contents of KS and BLK before it. R35 leaves them unspecified and R229 says that a model must assume neither that they are cleared nor that they are kept, so they may depend on the old contents; that they depend on nothing else is the model's choice (DESIGN CHOICE, log entry 2). -/
opaque resetKey : Nat → KeyState → Block → KeyState

/-- FREE VALUE: the contents of BLK after the n-th reset of a run, given the contents of KS and BLK before it (R35, R229), as for resetKey (DESIGN CHOICE, log entry 2). -/
opaque resetBlock : Nat → KeyState → Block → Block

end Sys2Proof.Config
end

