-- ==== Sys2Proof/Machine/Blocks.lean ====
section
/-! DEFINITION. Operations on Blocks, slots and key states: indexing, byte-wise maps, Block addition, reading and writing a slot, hexadecimal writing. -/

namespace Sys2Proof

/-- The Block with byte i equal to `f i`, i = 0..7. -/
def Block.ofFn (f : Nat → Byte) : Block := ⟨f 0, f 1, f 2, f 3, f 4, f 5, f 6, f 7⟩

/-- The eight bytes in order. -/
def Block.bytes (X : Block) : List Byte := [X.b0, X.b1, X.b2, X.b3, X.b4, X.b5, X.b6, X.b7]

/-- Byte i of a Block, i = 0..7 (R10). -/
def Block.byte (X : Block) (i : Fin 8) : Byte :=
  match i with
  | 0 => X.b0
  | 1 => X.b1
  | 2 => X.b2
  | 3 => X.b3
  | 4 => X.b4
  | 5 => X.b5
  | 6 => X.b6
  | 7 => X.b7

/-- The Block with `f` applied to every byte. -/
def Block.map (f : Byte → Byte) (X : Block) : Block :=
  ⟨f X.b0, f X.b1, f X.b2, f X.b3, f X.b4, f X.b5, f X.b6, f X.b7⟩

/-- Block addition `X ^ Y`, byte by byte (R10, R191). -/
def Block.xor (X Y : Block) : Block :=
  ⟨X.b0 ^^^ Y.b0, X.b1 ^^^ Y.b1, X.b2 ^^^ Y.b2, X.b3 ^^^ Y.b3,
   X.b4 ^^^ Y.b4, X.b5 ^^^ Y.b5, X.b6 ^^^ Y.b6, X.b7 ^^^ Y.b7⟩

/-- `0^B`, eight zero bytes (R10). -/
def Block.zero : Block := ⟨0, 0, 0, 0, 0, 0, 0, 0⟩

/-- A Block written as 16 hexadecimal digits, the leftmost two being byte 0 (R10). -/
def Block.hex (n : Nat) : Block := Block.ofFn fun i => BitVec.ofNat 8 (n >>> (56 - 8 * i))

/-- `1 - s`, the other slot (R12). -/
def Slot.other : Slot → Slot
  | .zero => .one
  | .one => .zero

/-- The slot `r mod 2` (R126). -/
def Slot.ofParity (r : Nat) : Slot := if r % 2 = 0 then .zero else .one

/-- `KS[s]` read (R11). -/
def KeyState.get (k : KeyState) : Slot → Block
  | .zero => k.slot0
  | .one => k.slot1

/-- `KS[s] <- X` (R11). -/
def KeyState.set (k : KeyState) : Slot → Block → KeyState
  | .zero, X => { k with slot0 := X }
  | .one, X => { k with slot1 := X }

/-- A key state written as 32 hexadecimal digits, KS[0] first (R78). -/
def KeyState.hex (n : Nat) : KeyState := ⟨Block.hex (n >>> 64), Block.hex n⟩

end Sys2Proof
end

