-- ==== Sys2Proof/Machine/State.lean ====
section
/-! DEFINITION. The state of the core as plain data, the reasons a step can stop, and the reset state. -/

namespace Sys2Proof.Machine

/-- The sequencer phase PH (R27). Codes 5 and 6 are never taken and have no constructor (U9). -/
inductive Phase where
  | idle
  | init
  | apply
  | advance
  | final
  | halt
  deriving DecidableEq, Repr, Inhabited

/-- The four fault causes of the core (R211). Entering one is a next state of the machine (R221), not a stop of the model. -/
inductive FaultCause where
  | illegalCmd
  | roundRange
  | keyInvalid
  | blkInvalid
  deriving DecidableEq, Repr

/-- A response payload of 0, 1, 8 or 16 bytes (R73, R81). -/
inductive Payload where
  | empty
  | byte (b : Byte)
  | block (X : Block)
  | keyState (k : KeyState)
  deriving DecidableEq, Repr

/-- The response a step returns (R81): `Done(payload)` or `Faulted(code)`. -/
inductive Response where
  | done (p : Payload)
  | faulted (code : BitVec 3)
  deriving DecidableEq, Repr

/-- What the host does next (R14, R60; log entry 3). -/
inductive HostAction where
  /-- Present this command word and this `wdata`, and hold them until they are accepted (R80, R250). -/
  | command (word : CmdWord) (wdata : Bus)
  /-- Present nothing for one step. -/
  | wait
  /-- Assert `rst` for one step (R240). -/
  | reset
  deriving DecidableEq, Repr

/-- The state: every register of R20, the host port as far as a run needs it, and the model's own fields. -/
structure State where
  /-- KS[0] and KS[1] (R21). -/
  ks : KeyState
  /-- BLK (R23). -/
  blk : Block
  /-- KV: KS has been loaded since reset (R24). -/
  kv : Bool
  /-- BV: BLK has been loaded since reset (R24). -/
  bv : Bool
  /-- OP: opcode of the sequenced command in flight (R26). -/
  op : BitVec 4
  /-- PH: the sequencer phase (R27). -/
  ph : Phase
  /-- RND: the round index (R28). -/
  rnd : BitVec 4
  /-- STOP: the round index of the last ADVANCE (R28). -/
  stop : BitVec 4
  /-- DST: the slot the next ADVANCE writes (R29). -/
  dst : Slot
  /-- FAULT: the core is halted (R30). -/
  fault : Bool
  /-- FCODE: the cause of the fault (R30, R211). -/
  fcode : BitVec 3
  /-- The input bus `wdata` as sampled at the last acceptance (R54, R60; log entry 5). -/
  wdata : Bus
  /-- The response the last step returned, if any; it stands for one step (R81; log entry 6). -/
  rsp : Option Response
  /-- The model's own: what the host will do, in order (log entry 3). -/
  host : List HostAction
  /-- The model's own: how many resets this run has taken, the index of the free values of Config (log entry 2). -/
  resets : Nat
  deriving DecidableEq, Repr

/-- Why the machine stops. -/
inductive Fault where
  /-- Raised by a sequencer micro-step in a state no run reaches: PH says a command is in flight, and no micro-step rule of R27 covers OP and RND there (OP names no sequenced command with this phase, or RND is above R). Safe: the machine stops where the spec gives no effect (log entry 13). -/
  | noMicroStep
  deriving DecidableEq, Repr

/-- Why an instruction has no meaning here. -/
inductive Refusal where
  /-- Raised by `exec`'s arms for an instruction without a meaning. Safe. No arm raises it: every instruction has its meaning. -/
  | notModelled (mnemonic : String)
  /-- Raised by `exec` in a state with PH not IDLE: no command is accepted there, the host step has no move (R80, R230, U10; log entry 12). `step` never raises it. Safe. -/
  | notReady
  deriving DecidableEq, Repr

/-- The machine right after reset (R35, R240). KS and BLK, which the spec leaves unspecified, are zero bytes (DESIGN CHOICE, unsafe, log entry 1). -/
def State.reset : State where
  ks := ⟨⟨0, 0, 0, 0, 0, 0, 0, 0⟩, ⟨0, 0, 0, 0, 0, 0, 0, 0⟩⟩
  blk := ⟨0, 0, 0, 0, 0, 0, 0, 0⟩
  kv := false
  bv := false
  op := 0
  ph := .idle
  rnd := 0
  stop := 0
  dst := .zero
  fault := false
  fcode := 0
  wdata := 0
  rsp := none
  host := []
  resets := 0

end Sys2Proof.Machine
end

