-- ==== Sys2Proof/Machine/Operands.lean ====
section
/-! DEFINITION. Operand forms: the payload read from `wdata`, the payload put on `rdata`, their lanes (R54, R55, R73), and the range of a round operand (R72). -/

namespace Sys2Proof.Machine

/-- Payload byte j on a bus: bits `[127-8j : 120-8j]` (R54). -/
def lane (d : Bus) (j : Nat) : Byte := d.extractLsb' (120 - 8 * j) 8

/-- The eight lanes from lane `j` on, as a Block. -/
def lanesBlock (d : Bus) (j : Nat) : Block := Block.ofFn fun i => lane d (j + i)

/-- `In(8)`: the Block in lanes 0..7 of `wdata`; lanes 8..15 are ignored (R54, R181). -/
def inBlock (d : Bus) : Block := lanesBlock d 0

/-- `In(16)` as a key state: bytes 0..7 to slot 0, bytes 8..15 to slot 1 (R55, R180). -/
def inKeyState (d : Bus) : KeyState := ⟨lanesBlock d 0, lanesBlock d 8⟩

/-- The payload as a byte sequence (R81). -/
def Payload.bytes : Payload → List Byte
  | .empty => []
  | .byte b => [b]
  | .block X => X.bytes
  | .keyState k => k.slot0.bytes ++ k.slot1.bytes

/-- Bytes put in the lanes from lane `j` on, all other lanes 0 (R54). -/
def placeLanes (j : Nat) : List Byte → Bus
  | [] => 0
  | b :: rest => (b.setWidth 128 <<< (120 - 8 * j)) ||| placeLanes (j + 1) rest

/-- A payload on `rdata`: its bytes from lane 0 on, the other lanes 0 (R54, R81). -/
def Payload.bus (p : Payload) : Bus := placeLanes 0 p.bytes

/-- The range check `round > 8` of R213. -/
def roundOutOfRange (r : Nat) : Bool := decide (Config.R < r)

end Sys2Proof.Machine
end

