-- ==== Sys2Proof/Machine/Flags.lean ====
section
/-! DEFINITION. Codes and flags: the numeric codes of PH and of the fault causes, BUSY, `cmd_ready`, `rsp_valid`, `rdata` and the STATUS port (R27, R31, R60, R81, R211). -/

namespace Sys2Proof.Machine

/-- The numeric code of a phase (R27). -/
def Phase.code : Phase → BitVec 3
  | .idle => 0
  | .init => 1
  | .apply => 2
  | .advance => 3
  | .final => 4
  | .halt => 7

/-- PH says a command is in flight (R31). -/
def Phase.busy : Phase → Bool
  | .init | .apply | .advance | .final => true
  | .idle | .halt => false

/-- The code of a fault cause (R211). -/
def FaultCause.code : FaultCause → BitVec 3
  | .illegalCmd => 1
  | .roundRange => 2
  | .keyInvalid => 3
  | .blkInvalid => 4

/-- BUSY (R31). -/
def State.busy (s : State) : Bool := s.ph.busy

/-- `cmd_ready`: 1 if and only if PH = IDLE (R60). -/
def State.cmdReady (s : State) : Bool := decide (s.ph = .idle)

/-- The STATUS port (R31): FAULT, FCODE, 0, BUSY, BV, KV from bit 7 down. -/
def State.status (s : State) : BitVec 8 :=
  BitVec.ofBool s.fault ++ s.fcode ++ 0#1 ++ BitVec.ofBool s.busy ++ BitVec.ofBool s.bv ++
    BitVec.ofBool s.kv

/-- `rsp_valid`: the last step completed a command (R81). -/
def State.rspValid (s : State) : Bool :=
  match s.rsp with
  | some (.done _) => true
  | some (.faulted _) => false
  | none => false

/-- `rdata`, where the spec gives it a value: while a payload is driven (R81). Elsewhere it has no specified value and the model exposes none (U7; log entry 6). -/
def State.rdata (s : State) : Option Bus :=
  match s.rsp with
  | some (.done .empty) => none
  | some (.done p) => some p.bus
  | some (.faulted _) => none
  | none => none

end Sys2Proof.Machine
end

