-- ==== Sys2Proof/Machine/Ops.lean ====
section
/-! DEFINITION. The shared operations: completing a command, starting a sequenced one, the checks at acceptance, fault entry and, beside it, reset, which is the only way back from a fault. -/

namespace Sys2Proof.Machine

/-- The outcome of a step of this machine. -/
abbrev Outcome := Host.Outcome State Fault Refusal

/-- FAULT ENTRY (R221): `FAULT <- 1 ; FCODE <- code ; PH <- HALT` and no other register, response `Faulted(code)`. -/
def raiseFault (c : FaultCause) (s : State) : State :=
  { s with fault := true, fcode := c.code, ph := .halt, rsp := some (.faulted c.code) }

/-- RESET (R35, R240, R241): the flags and the sequencer take their reset values, KS and BLK free contents that may depend on the old ones and on the number of the reset (DESIGN CHOICE on what they may depend on, log entry 2), whatever was in flight is abandoned. It is the only exit from HALT (R222). The host's list and the bus are not the core's. -/
def applyReset (s : State) : State :=
  { State.reset with
    ks := Config.resetKey s.resets s.ks s.blk
    blk := Config.resetBlock s.resets s.ks s.blk
    wdata := s.wdata
    host := s.host
    resets := s.resets + 1 }

/-- The command completes: `rsp_valid` is pulsed with the payload (R81). -/
def complete (p : Payload) (s : State) : State := { s with rsp := some (.done p) }

/-- A step that completes no command: no response (R81). -/
def noResponse (s : State) : State := { s with rsp := none }

/-- Acceptance of a sequenced command: `OP <- cmd[15:12] ; PH <- INIT`, no response yet (R80). -/
def startSequence (opcode : BitVec 4) (s : State) : State :=
  { s with op := opcode, ph := .init, rsp := none }

/-- What a command must have checked at acceptance, beside its decoding (R220 steps 2 to 4). -/
structure Checks where
  /-- The round operand, if the command has one. -/
  round : Option Nat := none
  /-- The command reads KS (R214). -/
  readsKS : Bool := false
  /-- The command reads BLK (R215). -/
  readsBLK : Bool := false

/-- The first check that fails, in the order of R220. -/
def firstFault (c : Checks) (s : State) : Option FaultCause :=
  if c.round.any roundOutOfRange then some .roundRange
  else if c.readsKS && !s.kv then some .keyInvalid
  else if c.readsBLK && !s.bv then some .blkInvalid
  else none

/-- ACCEPTANCE of a decoded command (R80, R220): only when PH = IDLE; the first failing check raises its fault; otherwise the command has its effect. In any other phase the host step has no move (R230). -/
def accept (c : Checks) (s : State) (effect : State → State) : Outcome :=
  if s.ph = .idle then
    match firstFault c s with
    | some cause => .next (raiseFault cause s)
    | none => .next (effect s)
  else .refused .notReady

end Sys2Proof.Machine
end

