-- ==== Sys2Proof/Machine/DataMovement.lean ====
section
/-! DEFINITION. Data movement: LDK, LDB, RDK, RDB (44_data_movement.md). -/

namespace Sys2Proof.Machine

/-- LDK (R180). -/
def execLdk (s : State) : Outcome :=
  accept {} s fun t => complete .empty { t with ks := inKeyState t.wdata, kv := true }

/-- LDB (R181). -/
def execLdb (s : State) : Outcome :=
  accept {} s fun t => complete .empty { t with blk := inBlock t.wdata, bv := true }

/-- RDK (R182). -/
def execRdk (s : State) : Outcome :=
  accept { readsKS := true } s fun t => complete (.keyState t.ks) t

/-- RDB (R183). -/
def execRdb (s : State) : Outcome :=
  accept { readsBLK := true } s fun t => complete (.block t.blk) t

end Sys2Proof.Machine
end

