-- ==== Sys2Proof/Machine/Engine.lean ====
section
/-! DEFINITION. The Substitution Engine as functions of the parameters: the three-pass construction, SubBlock and the round constants. -/

namespace Sys2Proof.Machine

open Sys2Proof.Config (Params)

/-- Box P: the high nibble of `T n` (R101). -/
def boxP (T : Nibble → Byte) (n : Nibble) : Nibble := (T n).extractLsb' 4 4

/-- Box Q: the low nibble of `T n` (R101). -/
def boxQ (T : Nibble → Byte) (n : Nibble) : Nibble := (T n).extractLsb' 0 4

/-- A pass with P on the high nibble and Q on the low one: pass 0 and pass 2 (R102). -/
def passPQ (T : Nibble → Byte) (h : Nibble × Nibble) : Nibble × Nibble := (boxP T h.1, boxQ T h.2)

/-- The middle pass, roles swapped: Q on the high nibble and P on the low one (R102). -/
def passQP (T : Nibble → Byte) (h : Nibble × Nibble) : Nibble × Nibble := (boxQ T h.1, boxP T h.2)

/-- The construction of R102: three nonlinear passes joined by two uses of the same wiring. -/
def sAlg (T : Nibble → Byte) (wire : Nibble → Nibble → Nibble × Nibble) (b : Byte) : Byte :=
  let p0 := passPQ T (b.extractLsb' 4 4, b.extractLsb' 0 4)
  let w0 := wire p0.1 p0.2
  let p1 := passQP T w0
  let w1 := wire p1.1 p1.2
  let p2 := passPQ T w1
  p2.1 ++ p2.2

/-- `S(b)`, the engine's substitution (R100, R102; log entry 9). -/
def S (P : Params) (b : Byte) : Byte := sAlg P.T P.wire b

/-- `SubBlock(X)` (R107). -/
def subBlock (P : Params) (X : Block) : Block := X.map (S P)

/-- `RCbyte(r, i) = S(8r + i)` (R108). -/
def rcByte (P : Params) (r i : Nat) : Byte := S P (BitVec.ofNat 8 (r * Config.B + i))

/-- `RC(r)`, the round-constant Block (R109). -/
def roundConstant (P : Params) (r : Nat) : Block := Block.ofFn (rcByte P r)

end Sys2Proof.Machine
end

