-- ==== Sys2Proof/Machine/Collaborators.lean ====
section
/-! DEFINITION. The key-schedule function F and the one data operation of the key schedule, XSTEP, as functions of the parameters. -/

namespace Sys2Proof.Machine

open Sys2Proof.Config (Params)

/-- `F(X, r) = diffuse(SubBlock(X)) ^ RC(r)` (R193). -/
def F (P : Params) (X : Block) (r : Nat) : Block :=
  (P.diffuse (subBlock P X)).xor (roundConstant P r)

/-- `XSTEP(s, r)`: `KS[s] <- KS[s] ^ F(KS[1-s], r)` (R123). -/
def xstep (P : Params) (s : Slot) (r : Nat) (k : KeyState) : KeyState :=
  k.set s ((k.get s).xor (F P (k.get s.other) r))

end Sys2Proof.Machine
end

