-- ==== Sys2Proof/Machine/Sequencer.lean ====
section
/-! DEFINITION. The sequencer: the micro-steps INIT, APPLY, ADVANCE and FINAL of the five sequenced commands (R27, R130, R146, R156 to R164), as functions of the parameters. -/

namespace Sys2Proof.Machine

open Sys2Proof.Config (Params)

/-- The five sequenced commands (R26). -/
inductive SeqCommand where
  | esk
  | dsk
  | dske
  | enc
  | dec
  deriving DecidableEq, Repr

/-- The opcode a sequenced command leaves in OP (R26, R74). -/
def SeqCommand.opcode : SeqCommand → BitVec 4
  | .esk => 0xA
  | .dsk => 0xB
  | .dske => 0xC
  | .enc => 0xD
  | .dec => 0xE

/-- Which sequenced command OP names, if any. -/
def seqCommandOf (op : BitVec 4) : Option SeqCommand :=
  match op.toNat with
  | 0xA => some .esk
  | 0xB => some .dsk
  | 0xC => some .dske
  | 0xD => some .enc
  | 0xE => some .dec
  | _ => none

/-- INIT of ESK, DSK and DSKE: the first and last round index of the walk, DST 0, then ADVANCE (R146). -/
def initDerivation (first last : BitVec 4) (s : State) : State :=
  { s with rnd := first, stop := last, dst := .zero, ph := .advance, rsp := none }

/-- INIT of ENC: the initial key addition (R156). -/
def initEnc (s : State) : State :=
  { s with blk := s.blk.xor s.ks.slot0, rnd := 2, stop := 8, dst := .zero, ph := .apply, rsp := none }

/-- INIT of DEC: key addition, then substitution (R162). -/
def initDec (P : Params) (s : State) : State :=
  { s with
    blk := subBlock P (s.blk.xor s.ks.slot0)
    rnd := 8, stop := 2, dst := .zero, ph := .apply, rsp := none }

/-- The micro-step INIT. -/
def microInit (P : Params) (c : SeqCommand) (s : State) : State :=
  match c with
  | .esk => initDerivation 0 1 s
  | .dsk => initDerivation 0 8 s
  | .dske => initDerivation 2 8 s
  | .enc => initEnc s
  | .dec => initDec P s

/-- APPLY of ENC: the round transformation with the slot ADVANCE will read (R157, R170). -/
def applyEnc (P : Params) (s : State) : State :=
  { s with blk := P.rt s.blk (s.ks.get s.dst.other) s.rnd.toNat, ph := .advance, rsp := none }

/-- APPLY of DEC: the inverse round transformation (R163, R170). -/
def applyDec (P : Params) (s : State) : State :=
  { s with blk := P.irt s.blk (s.ks.get s.dst.other) s.rnd.toNat, ph := .advance, rsp := none }

/-- RND after an ADVANCE that is not the last: down in DEC, up in every other command (R130). -/
def nextRound (c : SeqCommand) (r : BitVec 4) : BitVec 4 :=
  match c with
  | .dec => r - 1
  | .esk | .dsk | .dske | .enc => r + 1

/-- PH after an ADVANCE that is not the last (R130). -/
def phaseAfterAdvance (c : SeqCommand) : Phase :=
  match c with
  | .enc | .dec => .apply
  | .esk | .dsk | .dske => .advance

/-- What the last ADVANCE of a command does beside its XSTEP: ENC and DEC go to FINAL, the derivations complete with `Done([])` (R130). -/
def endOfWalk (c : SeqCommand) (s : State) : State :=
  match c with
  | .enc | .dec => { s with ph := .final, rsp := none }
  | .esk | .dsk | .dske => complete .empty { s with ph := .idle }

/-- The micro-step ADVANCE (R130): XSTEP(DST, RND), DST complemented, then on or to the end. -/
def advance (P : Params) (c : SeqCommand) (s : State) : State :=
  let t : State := { s with ks := xstep P s.dst s.rnd.toNat s.ks, dst := s.dst.other }
  if s.rnd = s.stop then endOfWalk c t
  else { t with rnd := nextRound c s.rnd, ph := phaseAfterAdvance c, rsp := none }

/-- FINAL of ENC: substitution, then the last key addition (R159). -/
def finalEnc (P : Params) (s : State) : State :=
  complete .empty
    { s with blk := (subBlock P s.blk).xor (s.ks.get s.dst.other), ph := .idle }

/-- FINAL of DEC: the last key addition (R164). -/
def finalDec (s : State) : State :=
  complete .empty { s with blk := s.blk.xor (s.ks.get s.dst.other), ph := .idle }

/-- One micro-step (R27): exactly one of the rules of R130, R146, R156, R157, R159, R162, R163, R164. Where PH says a command is in flight and none of them covers OP and RND, which no run reaches, the machine is stuck (log entry 13). -/
def microStep (P : Params) (s : State) : Outcome :=
  match s.ph, seqCommandOf s.op with
  | .init, some c => .next (microInit P c s)
  | .apply, some .enc => if roundOutOfRange s.rnd.toNat then .fault .noMicroStep else .next (applyEnc P s)
  | .apply, some .dec => if roundOutOfRange s.rnd.toNat then .fault .noMicroStep else .next (applyDec P s)
  | .advance, some c => if roundOutOfRange s.rnd.toNat then .fault .noMicroStep else .next (advance P c s)
  | .final, some .enc => .next (finalEnc P s)
  | .final, some .dec => .next (finalDec s)
  | _, _ => .fault .noMicroStep

end Sys2Proof.Machine
end

