-- ==== Sys2Proof/Machine/Drivers.lean ====
section
/-! DEFINITION. Acceptance of the cipher drivers ENC and DEC (43_cipher_drivers.md). Their work is done by the micro-steps of Machine/Sequencer.lean. -/

namespace Sys2Proof.Machine

/-- ENC (R155): `OP <- 0xD ; PH <- INIT` (R80). -/
def execEnc (s : State) : Outcome :=
  accept { readsKS := true, readsBLK := true } s (startSequence SeqCommand.enc.opcode)

/-- DEC (R161): `OP <- 0xE ; PH <- INIT` (R80). -/
def execDec (s : State) : Outcome :=
  accept { readsKS := true, readsBLK := true } s (startSequence SeqCommand.dec.opcode)

end Sys2Proof.Machine
end

