-- ==== Sys2Proof/Machine/KeyStep.lean ====
section
/-! DEFINITION. The stepping commands: STEPF, STEPB (41_key_schedule_step.md). -/

namespace Sys2Proof.Machine

/-- The effect both stepping commands have: `XSTEP(s, r)` on KS (R123). -/
def stepKey (sl : Slot) (r : Nat) (t : State) : State :=
  complete .empty { t with ks := xstep params sl r t.ks }

/-- STEPF s, r (R124). -/
def execStepf (sl : Slot) (r : Nat) (s : State) : Outcome :=
  accept { round := some r, readsKS := true } s (stepKey sl r)

/-- STEPB s, r (R125). -/
def execStepb (sl : Slot) (r : Nat) (s : State) : Outcome :=
  accept { round := some r, readsKS := true } s (stepKey sl r)

end Sys2Proof.Machine
end

