-- ==== Sys2Proof/Machine/StartKeys.lean ====
section
/-! DEFINITION. Acceptance of the start-key derivations ESK, DSK, DSKE (42_start_keys.md). Their work is done by the micro-steps of Machine/Sequencer.lean. -/

namespace Sys2Proof.Machine

/-- ESK (R141): `OP <- 0xA ; PH <- INIT` (R146). -/
def execEsk (s : State) : Outcome :=
  accept { readsKS := true } s (startSequence SeqCommand.esk.opcode)

/-- DSK (R142): `OP <- 0xB ; PH <- INIT` (R146). -/
def execDsk (s : State) : Outcome :=
  accept { readsKS := true } s (startSequence SeqCommand.dsk.opcode)

/-- DSKE (R143): `OP <- 0xC ; PH <- INIT` (R146). -/
def execDske (s : State) : Outcome :=
  accept { readsKS := true } s (startSequence SeqCommand.dske.opcode)

end Sys2Proof.Machine
end

