-- ==== Sys2Proof/Machine/Substitution.lean ====
section
/-! DEFINITION. The substitution commands: SUB, SUBBLK, RCB (40_substitution.md). -/

namespace Sys2Proof.Machine

/-- SUB imm8 (R110). -/
def execSub (imm8 : Byte) (s : State) : Outcome :=
  accept {} s fun t => complete (.byte (S params imm8)) t

/-- SUBBLK (R111). -/
def execSubblk (s : State) : Outcome :=
  accept { readsBLK := true } s fun t => complete .empty { t with blk := subBlock params t.blk }

/-- RCB round, index (R112). -/
def execRcb (round index : Nat) (s : State) : Outcome :=
  accept { round := some round } s fun t => complete (.byte (rcByte params round index)) t

end Sys2Proof.Machine
end

