-- ==== Sys2Proof/Machine/Dispatch.lean ====
section
/-! DEFINITION. The meaning of every command at its acceptance: one arm per constructor of Instr. -/

namespace Sys2Proof.Machine

def exec (i : Instr) (s : State) : Host.Outcome State Fault Refusal :=
  match i with
  -- data movement (44_data_movement.md)
  | .ldk => Sys2Proof.Machine.execLdk s
  | .ldb => Sys2Proof.Machine.execLdb s
  | .rdk => Sys2Proof.Machine.execRdk s
  | .rdb => Sys2Proof.Machine.execRdb s
  -- substitution (40_substitution.md)
  | .sub imm8 => Sys2Proof.Machine.execSub imm8 s
  | .subblk => Sys2Proof.Machine.execSubblk s
  | .rcb round index => Sys2Proof.Machine.execRcb round index s
  -- stepping (41_key_schedule_step.md)
  | .stepf sl r => Sys2Proof.Machine.execStepf sl r s
  | .stepb sl r => Sys2Proof.Machine.execStepb sl r s
  -- start keys (42_start_keys.md)
  | .esk => Sys2Proof.Machine.execEsk s
  | .dsk => Sys2Proof.Machine.execDsk s
  | .dske => Sys2Proof.Machine.execDske s
  -- drivers (43_cipher_drivers.md)
  | .enc => Sys2Proof.Machine.execEnc s
  | .dec => Sys2Proof.Machine.execDec s

end Sys2Proof.Machine
end

