-- ==== Sys2Proof/Machine/HostPort.lean ====
section
/-! DEFINITION. What a step does for the host port: accepting a presented word, and a step in which no command is accepted. -/

namespace Sys2Proof.Machine

/-- A step in which no command is accepted and `rst` is 0: while a command is in flight the sequencer takes its micro-step (R254, R255), in IDLE and in HALT nothing changes (R222, R256). -/
def tick (s : State) : Outcome :=
  match s.ph with
  | .idle | .halt => .next (noResponse s)
  | .init | .apply | .advance | .final => microStep params s

/-- The host step on an accepted word (R80, R220, R230): a reserved word raises ILLEGAL_CMD (R212), a command has its meaning. -/
def acceptWord (w : CmdWord) (s : State) : Outcome :=
  match decode w with
  | .command i => exec i s
  | .reserved _ => .next (raiseFault .illegalCmd s)

end Sys2Proof.Machine
end

