-- ==== Sys2Proof/Machine/Step.lean ====
section
/-! DEFINITION. One step of the machine: the host's next action meets the core. -/

namespace Sys2Proof.Machine

/-- One step. `rst` is taken in any phase (R240, R241). A presented command is accepted in IDLE (R60, R80) and otherwise held, the core going on without it. A wait, or no action left, lets the core go on. -/
def step (s : State) : Host.Outcome State Fault Refusal :=
  match s.host with
  | [] => tick s
  | .wait :: rest => tick { s with host := rest }
  | .reset :: rest => .next (applyReset { s with host := rest })
  | .command w d :: rest =>
    if s.ph = .idle then acceptWord w { s with host := rest, wdata := d }
    else tick s

/-- `s` with the host presenting this word next (payload lanes zero) and the core ready to accept it: the very next step accepts exactly it (log entry 4). -/
def State.withFetchWord (s : State) (nbits w : Nat) : State :=
  { s with
    host := .command (BitVec.ofNat 16 (w % 2 ^ nbits)) 0 :: s.host
    ph := .idle
    fault := false
    fcode := 0 }

end Sys2Proof.Machine
end

