-- ==== Sys2Proof/Machine/Pseudo.lean ====
section
/-! DEFINITION. The pseudo-commands of R79 as the host actions they expand to, and the textual form of a command (R78). -/

namespace Sys2Proof.Machine

/-- The host presents this command with this payload (R70). -/
def present (i : Instr) (p : Payload) : HostAction := .command (encode i) p.bus

/-- `ESKEY key` (R79). -/
def pseudoEskey (key : KeyState) : List HostAction := [present .ldk (.keyState key), present .esk .empty]

/-- `DSKEY key` (R79). -/
def pseudoDskey (key : KeyState) : List HostAction := [present .ldk (.keyState key), present .dsk .empty]

/-- The commands of `CALC a, b`: `STEPF (r-a) mod 2, r` for r = a, ..., b (R79). -/
def pseudoCalc (a b : Nat) : List Instr :=
  (List.range (b + 1 - a)).map fun k => Instr.stepf (Slot.ofParity k) (a + k)

/-- `ENCRYPT block` (R79). -/
def pseudoEncrypt (X : Block) : List HostAction :=
  [present .ldb (.block X), present .enc .empty, present .rdb .empty]

/-- `DECRYPT block` (R79). -/
def pseudoDecrypt (X : Block) : List HostAction :=
  [present .ldb (.block X), present .dec .empty, present .rdb .empty]

/-- The commands of `RCBLK r` (R79). -/
def pseudoRcblk (r : Nat) : List Instr := (List.range 8).map fun i => Instr.rcb r i

/-- One hexadecimal digit, in capitals as R78 writes payloads. -/
def hexDigit (n : Nat) : Char := "0123456789ABCDEF".toList.getD n '0'

/-- A byte as two hexadecimal digits. -/
def hexByte (b : Byte) : List Char := [hexDigit (b.toNat / 16), hexDigit (b.toNat % 16)]

/-- A byte sequence as hexadecimal digits, leftmost digits byte 0 (R78). -/
def hexBytes (bs : List Byte) : List Char := bs.flatMap hexByte

/-- A number below 100 in decimal, enough for every round, index and slot operand. -/
def decimal (n : Nat) : List Char :=
  if n < 10 then [hexDigit n] else [hexDigit (n / 10 % 10), hexDigit (n % 10)]

/-- The operands of a command as R78 writes them. -/
def operandText : Instr → List Char
  | .sub imm8 => " 0x".toList ++ hexByte imm8
  | .rcb round index => " ".toList ++ decimal round ++ ", ".toList ++ decimal index
  | .stepf s r => " ".toList ++ decimal (bitOfSlot s) ++ ", ".toList ++ decimal r
  | .stepb s r => " ".toList ++ decimal (bitOfSlot s) ++ ", ".toList ++ decimal r
  | .ldk | .ldb | .rdk | .rdb | .subblk | .esk | .dsk | .dske | .enc | .dec => []

/-- A command with its payload in the syntax of R78 (log entry 17 for the choice of decimal operands and a hexadecimal immediate). -/
def commandText (i : Instr) (p : Payload) : List Char :=
  i.row.mnemonic.toList ++ operandText i ++
    (if p.bytes.isEmpty then [] else ' ' :: hexBytes p.bytes)

end Sys2Proof.Machine
end

