-- ==== Sys2Proof/Machine/WholeCommand.lean ====
section
/-! DEFINITION. The key schedule and the sequenced commands as single functions of KS and BLK (R120, R127, R147, R160, R167), written from those rules and not from the micro-steps. -/

namespace Sys2Proof.Machine

open Sys2Proof.Config (Params)

/-- The schedule K of a raw key (R120, R121), with the index moved up by two so that it is a natural number: `scheduleFrom P key 0` is K[-2], `1` is K[-1], `r + 2` is K[r]. -/
def scheduleFrom (P : Params) (key : KeyState) : Nat → Block
  | 0 => key.slot0
  | 1 => key.slot1
  | r + 2 => (scheduleFrom P key r).xor (F P (scheduleFrom P key (r + 1)) r)

/-- K[r] for a round index r (R120). -/
def scheduleBlock (P : Params) (key : KeyState) (r : Nat) : Block := scheduleFrom P key (r + 2)

/-- `step(r, (U, V))` of R147 and R160. -/
def walkStep (P : Params) (r : Nat) (k : KeyState) : KeyState :=
  if r % 2 = 0 then { k with slot0 := k.slot0.xor (F P k.slot1 r) }
  else { k with slot1 := k.slot1.xor (F P k.slot0 r) }

/-- `cur(r, (U, V))` of R160. -/
def currentBlock (r : Nat) (k : KeyState) : Block := if r % 2 = 0 then k.slot1 else k.slot0

/-- `n` XSTEPs with round indices `a, a+1, ...`, starting in slot `d` and alternating. -/
def calcFrom (P : Params) : Nat → Slot → Nat → KeyState → KeyState
  | 0, _, _, k => k
  | n + 1, d, a, k => calcFrom P n d.other (a + 1) (xstep P d a k)

/-- `CALC(a, b)` (R127): rounds a to b, both included, d starting at 0. -/
def calcKey (P : Params) (a b : Nat) (k : KeyState) : KeyState := calcFrom P (b + 1 - a) .zero a k

/-- KS after ESK (R147). -/
def eskResult (P : Params) (k : KeyState) : KeyState :=
  let y0 := k.slot0.xor (F P k.slot1 0)
  ⟨y0, k.slot1.xor (F P y0 1)⟩

/-- KS after DSKE (R147). -/
def dskeResult (P : Params) (k : KeyState) : KeyState :=
  [2, 3, 4, 5, 6, 7, 8].foldl (fun k r => walkStep P r k) k

/-- KS after DSK (R147). -/
def dskResult (P : Params) (k : KeyState) : KeyState :=
  [0, 1, 2, 3, 4, 5, 6, 7, 8].foldl (fun k r => walkStep P r k) k

/-- One iteration of the loop of R160: APPLY, then the forward step. -/
def encRound (P : Params) (x : Block × KeyState) (r : Nat) : Block × KeyState :=
  (P.rt x.1 (currentBlock r x.2) r, walkStep P r x.2)

/-- One iteration of the loop of R167: inverse APPLY, then the backward step. -/
def decRound (P : Params) (x : Block × KeyState) (r : Nat) : Block × KeyState :=
  (P.irt x.1 (currentBlock r x.2) r, walkStep P r x.2)

/-- BLK and KS after ENC (R160). -/
def encResult (P : Params) (b : Block) (k : KeyState) : Block × KeyState :=
  let x := [2, 3, 4, 5, 6, 7, 8].foldl (encRound P) (b.xor k.slot0, k)
  ((subBlock P x.1).xor x.2.slot0, x.2)

/-- BLK and KS after DEC (R167). -/
def decResult (P : Params) (b : Block) (k : KeyState) : Block × KeyState :=
  let x := [8, 7, 6, 5, 4, 3, 2].foldl (decRound P) (subBlock P (b.xor k.slot0), k)
  (x.1.xor x.2.slot0, x.2)

end Sys2Proof.Machine
end

