-- ==== Sys2Proof/Safety.lean ====
section
/-! DEFINITION. The terms claims are stated in: the invariant of the core, the named properties of the parameters, a host that does not interfere, and runs of steps. -/

namespace Sys2Proof

/-- The command reads KS (the list of R214). -/
def Instr.readsKS : Instr → Bool
  | .rdk | .stepf _ _ | .stepb _ _ | .esk | .dsk | .dske | .enc | .dec => true
  | .ldk | .ldb | .rdb | .sub _ | .subblk | .rcb _ _ => false

/-- The command reads BLK (the list of R215). -/
def Instr.readsBLK : Instr → Bool
  | .rdb | .subblk | .enc | .dec => true
  | .ldk | .ldb | .rdk | .sub _ | .rcb _ _ | .stepf _ _ | .stepb _ _ | .esk | .dsk | .dske => false

/-- The command's round operand, if it has one (R213). -/
def Instr.roundOperand : Instr → Option Nat
  | .rcb round _ => some round
  | .stepf _ r => some r
  | .stepb _ r => some r
  | .ldk | .ldb | .rdk | .rdb | .sub _ | .subblk | .esk | .dsk | .dske | .enc | .dec => none

end Sys2Proof

namespace Sys2Proof.Machine

open Sys2Proof.Config (Params)

/-- S_PERM (R197): S is a permutation of the bytes. -/
def SPerm (P : Params) : Prop := Function.Bijective (S P)

/-- S_INVOL (R197). -/
def SInvol (P : Params) : Prop := ∀ b, S P (S P b) = b

/-- S_ALG (R197): the construction reproduces the reference table. -/
def SAlgContract (P : Params) : Prop := ∀ b, sAlg P.T P.wire b = P.sref b

/-- S_KHAZAD (R197), as far as the spec prints the table: SREF is the table of R105. -/
def SKhazad (P : Params) : Prop := ∀ b, P.sref b = srefRef b

/-- RT_INV (R195, R197), for the rounds 2..8 the drivers use. -/
def RtInv (P : Params) : Prop := ∀ X K r, 2 ≤ r → r ≤ 8 → P.irt (P.rt X K r) K r = X

/-- DIFF_LINEAR (R192, R197). -/
def DiffLinear (P : Params) : Prop := ∀ X Y, P.diffuse (X.xor Y) = (P.diffuse X).xor (P.diffuse Y)

/-- KAT (R172, R197), for the one published vector the spec remembers (95_test_vectors.md V1). -/
def Kat (P : Params) : Prop :=
  (encResult P (Block.hex 0) (eskResult P (KeyState.hex 0x80000000000000000000000000000000))).1 =
    Block.hex 0x49A4CE32AC190E3F

/-- The value STOP has once a command's INIT has run (R28). -/
def SeqCommand.stop : SeqCommand → Nat
  | .esk => 1
  | .dsk | .dske | .enc => 8
  | .dec => 2

/-- The least RND a command's walk takes (R146, R156, R162). -/
def SeqCommand.least : SeqCommand → Nat
  | .esk | .dsk => 0
  | .dske | .enc | .dec => 2

/-- The greatest RND a command's walk takes (R146, R156, R162). -/
def SeqCommand.greatest : SeqCommand → Nat
  | .esk => 1
  | .dsk | .dske | .enc | .dec => 8

/-- ENC and DEC, the commands with APPLY and FINAL. -/
def SeqCommand.isDriver : SeqCommand → Bool
  | .enc | .dec => true
  | .esk | .dsk | .dske => false

/-- RND, STOP and DST of a walk under way: RND in its range, STOP the command's, DST = RND mod 2 (R28, R126, R130). -/
def walkOk (c : SeqCommand) (s : State) : Bool :=
  decide (c.least ≤ s.rnd.toNat) && decide (s.rnd.toNat ≤ c.greatest) &&
    decide (s.stop.toNat = c.stop) && decide (s.dst = Slot.ofParity s.rnd.toNat)

/-- The registers a command in flight relies on are loaded (R24, R214, R215). -/
def loadedFor (c : SeqCommand) (s : State) : Bool := s.kv && (!c.isDriver || s.bv)

/-- What the sequencer state may be in each phase. -/
def sequencerOk (s : State) : Bool :=
  match s.ph with
  | .idle => true
  | .halt => true
  | .init => (seqCommandOf s.op).any fun c => loadedFor c s
  | .apply => (seqCommandOf s.op).any fun c => c.isDriver && loadedFor c s && walkOk c s
  | .advance => (seqCommandOf s.op).any fun c => loadedFor c s && walkOk c s
  | .final => (seqCommandOf s.op).any fun c =>
      c.isDriver && loadedFor c s && decide (s.rnd.toNat = c.stop) && decide (s.stop.toNat = c.stop) &&
        decide (s.dst = .one)

/-- FAULT, FCODE and PH agree (R30, R211). -/
def faultOk (s : State) : Bool :=
  (s.fault == decide (s.ph = .halt)) &&
    (if s.fault then decide (1 ≤ s.fcode.toNat) && decide (s.fcode.toNat ≤ 4) else decide (s.fcode = 0))

/-- The ranges of RND, STOP and OP (R26, R28). -/
def rangesOk (s : State) : Bool :=
  decide (s.rnd.toNat ≤ 8) && decide (s.stop.toNat ≤ 8) &&
    (decide (s.op = 0) || (seqCommandOf s.op).isSome)

/-- The invariant of the core. -/
def State.inv (s : State) : Bool := faultOk s && rangesOk s && sequencerOk s

/-- The host's next action leaves the core alone while it is busy: nothing, or a command held until it is accepted. -/
def hostHolds (s : State) : Bool :=
  match s.host with
  | [] => true
  | .command _ _ :: _ => true
  | .wait :: _ => false
  | .reset :: _ => false

/-- `rst` is not asserted in the next step. -/
def noReset (s : State) : Bool :=
  match s.host with
  | .reset :: _ => false
  | [] | .wait :: _ | .command _ _ :: _ => true

/-- Two states that differ at most in the sequencer registers whose value nothing depends on in this phase: all of OP, RND, STOP, DST in IDLE and HALT, RND, STOP, DST in INIT, none elsewhere (R29, R38). -/
def sameButSequencer (s t : State) : Prop :=
  t = { s with op := t.op, rnd := t.rnd, stop := t.stop, dst := t.dst } ∧
    (s.ph.busy = true → t.op = s.op) ∧
    (s.ph.busy = true → s.ph ≠ .init → t.rnd = s.rnd ∧ t.stop = s.stop ∧ t.dst = s.dst)

/-- Two states that differ at most in registers nothing has loaded: KS while KV = 0, BLK while BV = 0 (R24, R35). -/
def sameButUnloaded (s t : State) : Prop :=
  t = { s with ks := t.ks, blk := t.blk } ∧ (s.kv = true → t.ks = s.ks) ∧
    (s.bv = true → t.blk = s.blk)

/-- A host action without its data: the bus value of a presented command is replaced by 0. -/
def HostAction.shape : HostAction → HostAction
  | .command w _ => .command w 0
  | .wait => .wait
  | .reset => .reset

/-- A payload without its data: only its length is left (R73). -/
def Payload.shape : Payload → Payload
  | .empty => .empty
  | .byte _ => .byte 0
  | .block _ => .block Block.zero
  | .keyState _ => .keyState ⟨Block.zero, Block.zero⟩

/-- A response without its data: `Done` with the length of its payload, or `Faulted` with its code (R81). -/
def Response.shape : Response → Response
  | .done p => .done p.shape
  | .faulted code => .faulted code

/-- Two states with the same control: everything but the contents of KS and BLK, the bus, the bus values the host will present, and the last response (R171, R217). -/
def sameControl (s t : State) : Prop :=
  t = { s with ks := t.ks, blk := t.blk, wdata := t.wdata, rsp := t.rsp, host := t.host } ∧
    t.host.map HostAction.shape = s.host.map HostAction.shape

/-- The state after `n` steps, if all of them answer a next state. -/
def stateAfter (n : Nat) (s : State) : Option State :=
  match Host.Core.run Sys2Proof.core n s with
  | .next t => some t
  | .fault _ => none
  | .refused _ => none

end Sys2Proof.Machine
end

