-- ==== Sys2Proof/Certificates/Slice0/Obligations.lean ====
section
/-! DEFINITION. The statements for the provers, from the numbered rules of the spec. -/

open Sys2Proof Sys2Proof.Machine
open Sys2Proof.Config (Params)

/-! Encoding. -/

/-- R82, word by word: the worked encodings, and what the two round-range words and the reserved words do. -/
def Obligations.WorkedEncodings : Prop :=
  (encode (.sub 0x00) = 0x5000 ∧ decode 0x5000 = .command (.sub 0x00)) ∧
  (encode (.sub 0xFF) = 0x50FF ∧ decode 0x50FF = .command (.sub 0xFF)) ∧
  (encode (.rcb 0 0) = 0x7000 ∧ decode 0x7000 = .command (.rcb 0 0)) ∧
  (encode (.rcb 8 7) = 0x7047 ∧ decode 0x7047 = .command (.rcb 8 7)) ∧
  (decode 0x7048 = .command (.rcb 9 0) ∧
    ∀ s : State, s.ph = .idle → exec (.rcb 9 0) s = .next (raiseFault .roundRange s)) ∧
  decode 0x7080 = .reserved (.mustBeZero 7) ∧
  (encode (.stepf .zero 0) = 0x8000 ∧ decode 0x8000 = .command (.stepf .zero 0)) ∧
  (encode (.stepf .one 1) = 0x8011 ∧ decode 0x8011 = .command (.stepf .one 1)) ∧
  (encode (.stepf .zero 8) = 0x8008 ∧ decode 0x8008 = .command (.stepf .zero 8)) ∧
  (decode 0x8009 = .command (.stepf .zero 9) ∧
    ∀ s : State, s.ph = .idle → exec (.stepf .zero 9) s = .next (raiseFault .roundRange s)) ∧
  decode 0x8020 = .reserved (.mustBeZero 8) ∧
  (encode (.stepb .one 7) = 0x9017 ∧ decode 0x9017 = .command (.stepb .one 7)) ∧
  decode 0xA001 = .reserved (.mustBeZero 0xA) ∧
  decode 0x0000 = .reserved (.opcode 0) ∧ decode 0xFFFF = .reserved (.opcode 0xF)

/-- Decoding the word of a well-formed command gives the command back, with every operand (R71, R72, R77). -/
def Obligations.DecodeOfEncode : Prop :=
  ∀ i : Instr, i.wellFormed = true → decode (encode i) = .command i

/-- Every word that decodes to a command is that command's one word, and the command is well formed: decoding drops no bit (R71, R77). -/
def Obligations.EncodeOfDecode : Prop :=
  ∀ (w : CmdWord) (i : Instr), decode w = .command i → i.wellFormed = true ∧ encode i = w

/-- A word encodes a row's command if and only if, masked, it is the row's pattern (R74). -/
def Obligations.RowsMatchDecoding : Prop :=
  ∀ (w : CmdWord) (row : OpcodeRow), row ∈ opcodeMap →
    (w &&& row.mask = row.pattern ↔ ∃ i, decode w = .command i ∧ i.row = row)

/-- R75: which words are reserved, what accepting one does, and that the words with a round operand above 8 are not reserved but raise ROUND_RANGE. -/
def Obligations.ReservedWords : Prop :=
  (∀ w : CmdWord,
    ((∃ r, decode w = .reserved r) ↔ ∀ row ∈ opcodeMap, w &&& row.mask ≠ row.pattern) ∧
    ((∃ r, decode w = .reserved r) ↔
      (opcodeField w = 0x0 ∨ opcodeField w = 0xF ∨
        (opcodeField w ∈ [0x1, 0x2, 0x3, 0x4, 0x6, 0xA, 0xB, 0xC, 0xD, 0xE] ∧ operandField w ≠ 0) ∨
        (opcodeField w = 0x5 ∧ w.extractLsb' 8 4 ≠ 0) ∨
        (opcodeField w = 0x7 ∧ w.extractLsb' 7 5 ≠ 0) ∨
        ((opcodeField w = 0x8 ∨ opcodeField w = 0x9) ∧ w.extractLsb' 5 7 ≠ 0)))) ∧
  (∀ (s : State) (w : CmdWord) (d : Bus) (rest : List HostAction) (r : Reserved),
    s.host = .command w d :: rest → s.ph = .idle → decode w = .reserved r →
      step s = .next { s with
        host := rest, wdata := d, fault := true, fcode := 1, ph := .halt, rsp := some (.faulted 1) }) ∧
  (∀ n : Nat, 72 ≤ n → n ≤ 127 →
    decode (BitVec.ofNat 16 (0x7000 + n)) = .command (.rcb (n / 8) (n % 8))) ∧
  (∀ r : Nat, 9 ≤ r → r ≤ 15 →
    decode (BitVec.ofNat 16 (0x8000 + r)) = .command (.stepf .zero r) ∧
    decode (BitVec.ofNat 16 (0x8010 + r)) = .command (.stepf .one r) ∧
    decode (BitVec.ofNat 16 (0x9000 + r)) = .command (.stepb .zero r) ∧
    decode (BitVec.ofNat 16 (0x9010 + r)) = .command (.stepb .one r)) ∧
  (∀ (s : State) (round index : Nat) (sl : Slot), s.ph = .idle → 8 < round →
    exec (.rcb round index) s = .next (raiseFault .roundRange s) ∧
    exec (.stepf sl round) s = .next (raiseFault .roundRange s) ∧
    exec (.stepb sl round) s = .next (raiseFault .roundRange s))

/-! The host step. -/

/-- A STEP RUNS THE DECODED COMMAND: when PH = IDLE and the host presents a word that decodes to a command, the step is that command's meaning, with the word taken from the host and `wdata` sampled (R80). -/
def Obligations.StepRunsPresentedCommand : Prop :=
  ∀ (s : State) (w : CmdWord) (d : Bus) (rest : List HostAction) (i : Instr),
    s.host = .command w d :: rest → s.ph = .idle → decode w = .command i →
      step s = exec i { s with host := rest, wdata := d }

/-- With no acceptance and no reset the core goes on by itself: a micro-step while a command is in flight, nothing but the end of the response pulse in IDLE and HALT; a wait is taken from the host's list (R222, R254, R256). -/
def Obligations.StepWithoutAcceptance : Prop :=
  (∀ s : State, hostHolds s = true → s.ph.busy = true → step s = microStep params s) ∧
  (∀ s : State, s.host = [] → s.ph.busy = false → step s = .next { s with rsp := none }) ∧
  (∀ (s : State) (rest : List HostAction), s.host = .wait :: rest → s.ph.busy = false →
    step s = .next { s with host := rest, rsp := none }) ∧
  (∀ (s : State) (rest : List HostAction), s.host = .wait :: rest → s.ph.busy = true →
    step s = microStep params { s with host := rest })

/-- No command is accepted unless PH = IDLE (R80, R230): the host step has no move. -/
def Obligations.NoAcceptanceOutsideIdle : Prop :=
  ∀ (i : Instr) (s : State), s.ph ≠ .idle → exec i s = .refused .notReady

/-- A command presented while the core is busy or halted waits and has no effect: it stays first in the host's list, and the step does what it does with nothing presented (R80). -/
def Obligations.HeldCommandHasNoEffect : Prop :=
  ∀ (s t : State) (w : CmdWord) (d : Bus) (rest : List HostAction),
    s.host = .command w d :: rest → s.ph ≠ .idle → step s = .next t →
      t.host = s.host ∧ step { s with host := [] } = .next { t with host := [] }

/-! Faults, halting, reset. -/

/-- R220: the checks at acceptance, their order, and that nothing faults after them. -/
def Obligations.CheckOrder : Prop :=
  (∀ (s : State) (w : CmdWord) (d : Bus) (rest : List HostAction) (u : State),
    s.host = .command w d :: rest → s.ph = .idle → u = { s with host := rest, wdata := d } →
    (∀ r, decode w = .reserved r → step s = .next (raiseFault .illegalCmd u)) ∧
    (∀ i, decode w = .command i →
      ((∃ r, i.roundOperand = some r ∧ 8 < r) → step s = .next (raiseFault .roundRange u)) ∧
      ((∀ r, i.roundOperand = some r → r ≤ 8) →
        (i.readsKS = true → s.kv = false → step s = .next (raiseFault .keyInvalid u)) ∧
        ((i.readsKS = true → s.kv = true) →
          (i.readsBLK = true → s.bv = false → step s = .next (raiseFault .blkInvalid u)) ∧
          ((i.readsBLK = true → s.bv = true) →
            ∃ t, step s = .next t ∧ t.ph ≠ .halt ∧ t.fault = s.fault ∧ t.fcode = s.fcode))))) ∧
  (∀ s t : State, s.ph.busy = true → noReset s = true → step s = .next t →
    t.ph ≠ .halt ∧ t.fault = s.fault ∧ t.fcode = s.fcode)

/-- R221: entering a fault writes FAULT, FCODE and PH and no other register, gives no response but Faulted(code), and happens only from PH = IDLE. -/
def Obligations.FaultEntry : Prop :=
  (∀ (c : FaultCause) (s : State), raiseFault c s =
    { s with fault := true, fcode := c.code, ph := .halt, rsp := some (.faulted c.code) }) ∧
  (FaultCause.illegalCmd.code = 1 ∧ FaultCause.roundRange.code = 2 ∧
    FaultCause.keyInvalid.code = 3 ∧ FaultCause.blkInvalid.code = 4) ∧
  (∀ s t : State, s.ph ≠ .halt → step s = .next t → t.ph = .halt →
    s.ph = .idle ∧ t.rspValid = false ∧
    ∃ (c : FaultCause) (w : CmdWord) (d : Bus), s.host = .command w d :: t.host ∧
      t = { s with
        host := t.host, wdata := d, fault := true, fcode := c.code, ph := .halt,
        rsp := some (.faulted c.code) })

/-- R222: in HALT nothing is accepted, nothing changes, STATUS shows the cause, and only reset leads out. -/
def Obligations.HaltedUntilReset : Prop :=
  ∀ s : State, s.ph = .halt →
    s.cmdReady = false ∧
    (∀ i, exec i s = .refused .notReady) ∧
    (hostHolds s = true → step s = .next { s with rsp := none }) ∧
    (∀ rest, s.host = .wait :: rest → step s = .next { s with host := rest, rsp := none }) ∧
    (s.fault = true → s.status =
      1#1 ++ s.fcode ++ 0#1 ++ 0#1 ++ BitVec.ofBool s.bv ++ BitVec.ofBool s.kv) ∧
    (∀ rest, s.host = .reset :: rest →
      ∃ t, step s = .next t ∧ t.ph = .idle ∧ t.kv = false ∧ t.bv = false)

/-- R240, R241: `rst` in any phase, a command in flight included, gives the reset state at once and no response. KS and BLK take contents nothing is said about (free values, log entry 2). -/
def Obligations.ResetInAnyPhase : Prop :=
  ∀ (s : State) (rest : List HostAction), s.host = .reset :: rest →
    ∃ t, step s = .next t ∧ t.kv = false ∧ t.bv = false ∧ t.op = 0 ∧ t.ph = .idle ∧ t.rnd = 0 ∧
      t.stop = 0 ∧ t.dst = .zero ∧ t.fault = false ∧ t.fcode = 0 ∧ t.rsp = none ∧ t.status = 0 ∧
      t.cmdReady = true ∧ t.rspValid = false ∧ t.host = rest ∧
      exec .rdk t = .next (raiseFault .keyInvalid t) ∧ exec .rdb t = .next (raiseFault .blkInvalid t)

/-- Only reset leaves HALT and only reset clears KV and BV (R24, R240). -/
def Obligations.OnlyResetClears : Prop :=
  ∀ s t : State, noReset s = true → step s = .next t →
    (s.ph = .halt → t.ph = .halt ∧ t.fault = s.fault ∧ t.fcode = s.fcode) ∧
    (s.kv = true → t.kv = true) ∧ (s.bv = true → t.bv = true)

/-- The reset values of R35, with STATUS and `cmd_ready`. -/
def Obligations.ResetStateValues : Prop :=
  State.reset.kv = false ∧ State.reset.bv = false ∧ State.reset.op = 0 ∧ State.reset.ph = .idle ∧
    State.reset.rnd = 0 ∧ State.reset.stop = 0 ∧ State.reset.dst = .zero ∧
    State.reset.fault = false ∧ State.reset.fcode = 0 ∧ State.reset.status = 0x00 ∧
    State.reset.cmdReady = true ∧ State.reset.rspValid = false

/-- R31: the STATUS port, bit by bit. -/
def Obligations.StatusPort : Prop :=
  ∀ s : State,
    s.status.getLsbD 7 = s.fault ∧ s.status.extractLsb' 4 3 = s.fcode ∧
    s.status.getLsbD 3 = false ∧
    (s.status.getLsbD 2 = true ↔ s.ph = .init ∨ s.ph = .apply ∨ s.ph = .advance ∨ s.ph = .final) ∧
    s.status.getLsbD 1 = s.bv ∧ s.status.getLsbD 0 = s.kv

/-! Data movement. -/

/-- R180: LDK. -/
def Obligations.LdkLoadsKeyState : Prop :=
  (encode .ldk = 0x1000 ∧ decode 0x1000 = .command .ldk) ∧
  (∀ s : State, s.ph = .idle →
    exec .ldk s = .next { s with
      ks :=
        ⟨⟨s.wdata.extractLsb' 120 8, s.wdata.extractLsb' 112 8, s.wdata.extractLsb' 104 8,
          s.wdata.extractLsb' 96 8, s.wdata.extractLsb' 88 8, s.wdata.extractLsb' 80 8,
          s.wdata.extractLsb' 72 8, s.wdata.extractLsb' 64 8⟩,
         ⟨s.wdata.extractLsb' 56 8, s.wdata.extractLsb' 48 8, s.wdata.extractLsb' 40 8,
          s.wdata.extractLsb' 32 8, s.wdata.extractLsb' 24 8, s.wdata.extractLsb' 16 8,
          s.wdata.extractLsb' 8 8, s.wdata.extractLsb' 0 8⟩⟩
      kv := true
      rsp := some (.done .empty) }) ∧
  (∀ s : State, s.ph = .idle → s.wdata = 0x000102030405060708090A0B0C0D0E0F →
    exec .ldk s = .next { s with
      ks := ⟨⟨0x00, 0x01, 0x02, 0x03, 0x04, 0x05, 0x06, 0x07⟩,
        ⟨0x08, 0x09, 0x0A, 0x0B, 0x0C, 0x0D, 0x0E, 0x0F⟩⟩
      kv := true
      rsp := some (.done .empty) })

/-- R181: LDB; lanes 8..15 of `wdata` do not enter. -/
def Obligations.LdbLoadsBlock : Prop :=
  (encode .ldb = 0x2000 ∧ decode 0x2000 = .command .ldb) ∧
  (∀ s : State, s.ph = .idle →
    exec .ldb s = .next { s with
      blk :=
        ⟨s.wdata.extractLsb' 120 8, s.wdata.extractLsb' 112 8, s.wdata.extractLsb' 104 8,
         s.wdata.extractLsb' 96 8, s.wdata.extractLsb' 88 8, s.wdata.extractLsb' 80 8,
         s.wdata.extractLsb' 72 8, s.wdata.extractLsb' 64 8⟩
      bv := true
      rsp := some (.done .empty) }) ∧
  (∀ (s : State) (low : BitVec 64), s.ph = .idle → s.wdata = 0x0011223344556677#64 ++ low →
    exec .ldb s = .next { s with
      blk := ⟨0x00, 0x11, 0x22, 0x33, 0x44, 0x55, 0x66, 0x77⟩, bv := true,
      rsp := some (.done .empty) })

/-- R182: RDK, and that LDK of the value it returned restores KS exactly. -/
def Obligations.RdkReadsKeyState : Prop :=
  (encode .rdk = 0x3000 ∧ decode 0x3000 = .command .rdk) ∧
  (∀ s : State, s.ph = .idle → s.kv = false → exec .rdk s = .next (raiseFault .keyInvalid s)) ∧
  (∀ s : State, s.ph = .idle → s.kv = true →
    exec .rdk s = .next { s with rsp := some (.done (.keyState s.ks)) }) ∧
  (∀ k : KeyState, (Payload.keyState k).bytes = k.slot0.bytes ++ k.slot1.bytes) ∧
  (∀ s t u : State, s.ph = .idle → s.kv = true → exec .rdk s = .next t →
    u.ph = .idle → t.rdata = some u.wdata →
      exec .ldk u = .next { u with ks := s.ks, kv := true, rsp := some (.done .empty) }) ∧
  (∀ s : State, s.ph = .idle → s.kv = true →
    s.ks = KeyState.hex 0x80EE95CEE96968F7EE7435B617E917CF →
      ∃ t, exec .rdk s = .next t ∧ t.rdata = some 0x80EE95CEE96968F7EE7435B617E917CF)

/-- R183: RDB. -/
def Obligations.RdbReadsBlock : Prop :=
  (encode .rdb = 0x4000 ∧ decode 0x4000 = .command .rdb) ∧
  (∀ s : State, s.ph = .idle → s.bv = false → exec .rdb s = .next (raiseFault .blkInvalid s)) ∧
  (∀ s : State, s.ph = .idle → s.bv = true →
    exec .rdb s = .next { s with rsp := some (.done (.block s.blk)) }) ∧
  (∀ X : Block, (Payload.block X).bytes = X.bytes ∧ (Payload.block X).bus.extractLsb' 0 64 = 0) ∧
  (∀ s : State, s.ph = .idle → s.bv = true → s.blk = Block.hex 0x49A4CE32AC190E3F →
    ∃ t, exec .rdb s = .next t ∧ t.rdata = some 0x49A4CE32AC190E3F0000000000000000)

/-- The lanes of the bus (R54, R55): payload byte j lies in bits 127-8j down to 120-8j, unused read lanes are 0, and what a payload put on the bus is read back as is read back. -/
def Obligations.PayloadLanes : Prop :=
  (∀ (p : Payload) (j : Nat), j < 16 →
    p.bus.extractLsb' (120 - 8 * j) 8 = p.bytes.getD j 0) ∧
  (∀ k : KeyState, inKeyState (Payload.keyState k).bus = k) ∧
  (∀ X : Block, inBlock (Payload.block X).bus = X)

/-! Substitution. -/

/-- R110: SUB. The examples are of the reference parameters. -/
def Obligations.SubAnswersSubstitute : Prop :=
  (∀ imm8 : Byte, decode (0x50#8 ++ imm8) = .command (.sub imm8)) ∧
  (∀ (imm8 : Byte) (s : State), s.ph = .idle →
    exec (.sub imm8) s = .next { s with rsp := some (.done (.byte (S params imm8))) }) ∧
  S reference 0xBA = 0x00 ∧ S reference 0x00 = 0xBA ∧ S reference 0x47 = 0x8E

/-- R111: SUBBLK. The example is of the reference parameters. -/
def Obligations.SubblkSubstitutesBlock : Prop :=
  (encode .subblk = 0x6000 ∧ decode 0x6000 = .command .subblk) ∧
  (∀ s : State, s.ph = .idle → s.bv = false → exec .subblk s = .next (raiseFault .blkInvalid s)) ∧
  (∀ s : State, s.ph = .idle → s.bv = true →
    exec .subblk s = .next { s with
      blk :=
        ⟨S params s.blk.b0, S params s.blk.b1, S params s.blk.b2, S params s.blk.b3,
         S params s.blk.b4, S params s.blk.b5, S params s.blk.b6, S params s.blk.b7⟩
      rsp := some (.done .empty) }) ∧
  (∀ P : Params, (∀ X, subBlock P (subBlock P X) = X) ↔ SInvol P) ∧
  subBlock reference (Block.hex 0x0001020304050607) = Block.hex 0xBA542F7453D3D24D

/-- R112: RCB. The example is of the reference parameters. -/
def Obligations.RcbAnswersRoundConstant : Prop :=
  (∀ round index : Nat, round < 16 → index < 8 →
    decode (BitVec.ofNat 16 (0x7000 + 8 * round + index)) = .command (.rcb round index)) ∧
  (∀ (round index : Nat) (s : State), s.ph = .idle → 8 < round →
    exec (.rcb round index) s = .next (raiseFault .roundRange s)) ∧
  (∀ (round index : Nat) (s : State), s.ph = .idle → round ≤ 8 → index < 8 →
    exec (.rcb round index) s =
      .next { s with rsp := some (.done (.byte (S params (BitVec.ofNat 8 (8 * round + index))))) } ∧
    exec (.rcb round index) s = exec (.sub (BitVec.ofNat 8 (8 * round + index))) s) ∧
  rcByte reference 2 3 = 0xD1

/-- S_PERM, S_INVOL, S_ALG and S_KHAZAD hold of the reference parameters, the boxes P and Q are permutations and WIRE is its own inverse (R100, R103 to R105, R113). The reference values are the spec's general knowledge (log entry 7). -/
def Obligations.ReferenceSubstitution : Prop :=
  SPerm reference ∧ SInvol reference ∧ SAlgContract reference ∧ SKhazad reference ∧
    Function.Bijective (boxP tRef) ∧ Function.Bijective (boxQ tRef) ∧
    ∀ h l : Nibble, wireRef (wireRef h l).1 (wireRef h l).2 = (h, l)

/-- The reference diffusion is linear and its own inverse, RT_INV holds of the reference parameters, and the one remembered known-answer vector comes out (R172, R195, R197, R198). The reference values are the spec's general knowledge (log entry 8). -/
def Obligations.ReferenceCollaborators : Prop :=
  DiffLinear reference ∧ (∀ X, diffuseRef (diffuseRef X) = X) ∧ RtInv reference ∧ Kat reference

/-! The key schedule. -/

/-- R122: the backward form of the recurrence, and that XSTEP with the same slot and round is an involution, for every choice of the parameters. -/
def Obligations.XstepIsInvolution : Prop :=
  (∀ (P : Params) (key : KeyState) (r : Nat), r ≤ 8 →
    scheduleFrom P key r =
      (scheduleFrom P key (r + 2)).xor (F P (scheduleFrom P key (r + 1)) r)) ∧
  (∀ (P : Params) (Y X : Block) (r : Nat), (X.xor (F P Y r)).xor (F P Y r) = X) ∧
  (∀ (P : Params) (sl : Slot) (r : Nat) (k : KeyState), xstep P sl r (xstep P sl r k) = k)

/-- R124: STEPF. The example is of the reference parameters. -/
def Obligations.StepfStepsForward : Prop :=
  (∀ (sl : Slot) (r : Nat), r < 16 →
    decode (BitVec.ofNat 16 (0x8000 + 16 * bitOfSlot sl + r)) = .command (.stepf sl r)) ∧
  (∀ (sl : Slot) (r : Nat) (s : State), s.ph = .idle →
    (8 < r → exec (.stepf sl r) s = .next (raiseFault .roundRange s)) ∧
    (r ≤ 8 → s.kv = false → exec (.stepf sl r) s = .next (raiseFault .keyInvalid s)) ∧
    (r ≤ 8 → s.kv = true →
      exec (.stepf sl r) s = .next { s with
        ks := s.ks.set sl ((s.ks.get sl).xor (F params (s.ks.get sl.other) r))
        rsp := some (.done .empty) })) ∧
  xstep reference .zero 0 (KeyState.hex 0x80000000000000000000000000000000) =
    KeyState.hex 0x80EE95CEE96968F70000000000000000

/-- R125: STEPB; the same effect as STEPF on every state, each undoing the other and itself. The example is of the reference parameters. -/
def Obligations.StepbStepsBackward : Prop :=
  (∀ (sl : Slot) (r : Nat), r < 16 →
    decode (BitVec.ofNat 16 (0x9000 + 16 * bitOfSlot sl + r)) = .command (.stepb sl r)) ∧
  (∀ (sl : Slot) (r : Nat) (s : State), s.ph = .idle →
    (8 < r → exec (.stepb sl r) s = .next (raiseFault .roundRange s)) ∧
    (r ≤ 8 → s.kv = false → exec (.stepb sl r) s = .next (raiseFault .keyInvalid s)) ∧
    (r ≤ 8 → s.kv = true →
      exec (.stepb sl r) s = .next { s with
        ks := s.ks.set sl ((s.ks.get sl).xor (F params (s.ks.get sl.other) r))
        rsp := some (.done .empty) })) ∧
  (∀ (sl : Slot) (r : Nat) (s : State), exec (.stepb sl r) s = exec (.stepf sl r) s) ∧
  (∀ (sl : Slot) (r : Nat) (s t : State), s.ph = .idle → s.kv = true → r ≤ 8 →
    exec (.stepf sl r) s = .next t →
      exec (.stepb sl r) t = .next { t with ks := s.ks } ∧
      exec (.stepf sl r) t = .next { t with ks := s.ks }) ∧
  (xstep reference .zero 8 (KeyState.hex 0x7BED79E87EA09BD9A6BECA65273FF4EC)) =
    KeyState.hex 0x09C5DDD0359D9C3CA6BECA65273FF4EC

/-- R131: the first steps written out, and the same three steps taken back. -/
def Obligations.FirstSteps : Prop :=
  ∀ (P : Params) (A C : Block),
    xstep P .zero 0 ⟨A, C⟩ = ⟨A.xor (F P C 0), C⟩ ∧
    (∀ A', A' = A.xor (F P C 0) →
      xstep P .one 1 ⟨A', C⟩ = ⟨A', C.xor (F P A' 1)⟩ ∧
      ∀ C', C' = C.xor (F P A' 1) →
        xstep P .zero 2 ⟨A', C'⟩ = ⟨A'.xor (F P C' 2), C'⟩ ∧
        xstep P .zero 0 (xstep P .one 1 (xstep P .zero 2 ⟨A'.xor (F P C' 2), C'⟩)) = ⟨A, C⟩)

/-- Slot parity (R126): after the forward steps 0 to r from a raw key, K[r] stands in slot r mod 2 and K[r-1] in the other; a backward step with the newest index goes back one step. -/
def Obligations.SlotParity : Prop :=
  ∀ (P : Params) (key : KeyState) (r : Nat), r ≤ 8 →
    (calcKey P 0 r key).get (Slot.ofParity r) = scheduleBlock P key r ∧
    (calcKey P 0 r key).get (Slot.ofParity r).other = scheduleFrom P key (r + 1) ∧
    xstep P (Slot.ofParity r) r (calcKey P 0 r key) = (if r = 0 then key else calcKey P 0 (r - 1) key)

/-- The pseudo-command CALC (R79, R127): its STEPF commands, run from any state that is ready and has KS loaded, leave the KS of CALC(a, b); and CALC 0 1, CALC 0 8, CALC 2 8 are the results of ESK, DSK, DSKE. -/
def Obligations.CalcIsRepeatedStep : Prop :=
  (∀ (s : State) (a b : Nat), s.ph = .idle → s.kv = true → a ≤ b → b ≤ 8 →
    stateAfter (b + 1 - a) { s with host := (pseudoCalc a b).map (present · .empty) } =
      some { s with
        host := [], wdata := 0, ks := calcKey params a b s.ks, rsp := some (.done .empty) }) ∧
  (∀ (P : Params) (k : KeyState),
    calcKey P 0 1 k = eskResult P k ∧ calcKey P 0 8 k = dskResult P k ∧ calcKey P 2 8 k = dskeResult P k)

/-- R34: KS changes only by an XSTEP with a round index in 0..8 or by an LDK (reset apart), and one step changes at most one slot unless it is an LDK. -/
def Obligations.KeyStateWriters : Prop :=
  ∀ s t : State, noReset s = true → step s = .next t →
    t.ks = s.ks ∨
    (∃ (sl : Slot) (r : Nat), r ≤ 8 ∧ t.ks = xstep params sl r s.ks ∧
      t.ks.get sl.other = s.ks.get sl.other) ∨
    (∃ (d : Bus) (rest : List HostAction), s.host = .command 0x1000 d :: rest ∧ s.ph = .idle ∧
      t.ks = inKeyState d)

/-! Sequenced commands: acceptance and micro-steps. -/

/-- Acceptance of ESK, DSK and DSKE (R80, R141 to R143, R146): their words, and OP the opcode field of the word. -/
def Obligations.DerivationsStart : Prop :=
  (encode .esk = 0xA000 ∧ decode 0xA000 = .command .esk) ∧
  (encode .dsk = 0xB000 ∧ decode 0xB000 = .command .dsk) ∧
  (encode .dske = 0xC000 ∧ decode 0xC000 = .command .dske) ∧
  ∀ s : State, s.ph = .idle →
    (s.kv = true →
      exec .esk s = .next { s with op := 0xA, ph := .init, rsp := none } ∧
      exec .dsk s = .next { s with op := 0xB, ph := .init, rsp := none } ∧
      exec .dske s = .next { s with op := 0xC, ph := .init, rsp := none }) ∧
    (s.kv = false →
      exec .esk s = .next (raiseFault .keyInvalid s) ∧
      exec .dsk s = .next (raiseFault .keyInvalid s) ∧
      exec .dske s = .next (raiseFault .keyInvalid s))

/-- Acceptance of ENC and DEC (R80, R155, R161): their words, and OP the opcode field of the word. -/
def Obligations.DriversStart : Prop :=
  (encode .enc = 0xD000 ∧ decode 0xD000 = .command .enc) ∧
  (encode .dec = 0xE000 ∧ decode 0xE000 = .command .dec) ∧
  ∀ s : State, s.ph = .idle →
    (s.kv = true → s.bv = true →
      exec .enc s = .next { s with op := 0xD, ph := .init, rsp := none } ∧
      exec .dec s = .next { s with op := 0xE, ph := .init, rsp := none }) ∧
    (s.kv = false →
      exec .enc s = .next (raiseFault .keyInvalid s) ∧
      exec .dec s = .next (raiseFault .keyInvalid s)) ∧
    (s.kv = true → s.bv = false →
      exec .enc s = .next (raiseFault .blkInvalid s) ∧
      exec .dec s = .next (raiseFault .blkInvalid s))

/-- INIT of the derivations (R146): RND, STOP, DST and PH are set, KS and BLK are not changed. -/
def Obligations.DerivationInit : Prop :=
  ∀ s : State, s.ph = .init → hostHolds s = true →
    (s.op = 0xA → step s = .next { s with
      rnd := 0, stop := 1, dst := .zero, ph := .advance, rsp := none }) ∧
    (s.op = 0xB → step s = .next { s with
      rnd := 0, stop := 8, dst := .zero, ph := .advance, rsp := none }) ∧
    (s.op = 0xC → step s = .next { s with
      rnd := 2, stop := 8, dst := .zero, ph := .advance, rsp := none })

/-- R130: the micro-step ADVANCE; in every state of the invariant it completes without a fault, RND is at most STOP (in DEC at least STOP = 2), and RND neither leaves 0..8 nor wraps. -/
def Obligations.AdvanceMicroStep : Prop :=
  (∀ (s u : State) (c : SeqCommand), s.ph = .advance → hostHolds s = true →
    s.op = c.opcode → s.rnd.toNat ≤ 8 →
    u = { s with
      ks := s.ks.set s.dst ((s.ks.get s.dst).xor (F params (s.ks.get s.dst.other) s.rnd.toNat))
      dst := s.dst.other } →
    (s.rnd = s.stop → (c = .enc ∨ c = .dec) → step s = .next { u with ph := .final, rsp := none }) ∧
    (s.rnd = s.stop → c ≠ .enc → c ≠ .dec →
      step s = .next { u with ph := .idle, rsp := some (.done .empty) }) ∧
    (s.rnd ≠ s.stop → step s = .next { u with
      rnd := if c = .dec then s.rnd - 1 else s.rnd + 1
      ph := if c = .enc ∨ c = .dec then .apply else .advance
      rsp := none })) ∧
  (∀ s : State, s.inv = true → s.ph = .advance → hostHolds s = true →
    s.rnd.toNat ≤ 8 ∧
    (s.op ≠ 0xE → s.rnd.toNat ≤ s.stop.toNat ∧ s.stop.toNat ≤ 8) ∧
    (s.op = 0xE → 2 ≤ s.rnd.toNat ∧ s.stop = 2) ∧
    ∃ t, step s = .next t ∧ t.fault = false ∧
      (t.rnd = s.rnd ∨ t.rnd.toNat = s.rnd.toNat + 1 ∨ s.rnd.toNat = t.rnd.toNat + 1) ∧
      t.rnd.toNat ≤ 8)

/-- R156, R157, R159: the micro-steps INIT, APPLY and FINAL of ENC. -/
def Obligations.EncMicroSteps : Prop :=
  ∀ s : State, hostHolds s = true → s.op = 0xD →
    (s.ph = .init → step s = .next { s with
      blk := s.blk.xor s.ks.slot0, rnd := 2, stop := 8, dst := .zero, ph := .apply, rsp := none }) ∧
    (s.ph = .apply → s.rnd.toNat ≤ 8 → step s = .next { s with
      blk := params.rt s.blk (s.ks.get s.dst.other) s.rnd.toNat, ph := .advance, rsp := none }) ∧
    (s.ph = .final → step s = .next { s with
      blk := (subBlock params s.blk).xor (s.ks.get s.dst.other), ph := .idle,
      rsp := some (.done .empty) }) ∧
    (s.ph = .final → s.inv = true → s.dst = .one)

/-- R162, R163, R164: the micro-steps INIT, APPLY and FINAL of DEC. -/
def Obligations.DecMicroSteps : Prop :=
  ∀ s : State, hostHolds s = true → s.op = 0xE →
    (s.ph = .init → step s = .next { s with
      blk := subBlock params (s.blk.xor s.ks.slot0), rnd := 8, stop := 2, dst := .zero, ph := .apply,
      rsp := none }) ∧
    (s.ph = .apply → s.rnd.toNat ≤ 8 → step s = .next { s with
      blk := params.irt s.blk (s.ks.get s.dst.other) s.rnd.toNat, ph := .advance, rsp := none }) ∧
    (s.ph = .final → step s = .next { s with
      blk := s.blk.xor (s.ks.get s.dst.other), ph := .idle, rsp := some (.done .empty) }) ∧
    (s.ph = .final → s.inv = true → s.dst = .one)

/-! Sequenced commands as single functions. -/

/-- R147: the micro-steps of ESK, DSK and DSKE, from INIT on, amount to the single functions, in 3, 10 and 8 steps and not fewer, and leave the sequencer values the rule names. The counts are those of R146 and R253, one step a micro-step being the model's choice (log entry 10). -/
def Obligations.DerivationsAsFunctions : Prop :=
  ∀ s : State, s.ph = .init → hostHolds s = true →
    (s.op = 0xA →
      stateAfter 3 s = some { s with
        ks := eskResult params s.ks, ph := .idle, rnd := 1, stop := 1, dst := .zero,
        rsp := some (.done .empty) } ∧
      ∀ n < 3, ∃ t, stateAfter n s = some t ∧ t.ph.busy = true) ∧
    (s.op = 0xB →
      stateAfter 10 s = some { s with
        ks := dskResult params s.ks, ph := .idle, rnd := 8, stop := 8, dst := .one,
        rsp := some (.done .empty) } ∧
      ∀ n < 10, ∃ t, stateAfter n s = some t ∧ t.ph.busy = true) ∧
    (s.op = 0xC →
      stateAfter 8 s = some { s with
        ks := dskeResult params s.ks, ph := .idle, rnd := 8, stop := 8, dst := .one,
        rsp := some (.done .empty) } ∧
      ∀ n < 8, ∃ t, stateAfter n s = some t ∧ t.ph.busy = true)

/-- R160: the micro-steps of ENC, from INIT on, amount to the single function, in 16 steps and not fewer; from an encrypt start key the result is that of adding K[0], applying RT with K[1] to K[7] and round operands 2 to 8, substituting and adding K[8], and KS is left with K[8] and K[7]. The count of steps is that of R165 and R253, one step a micro-step being the model's choice (log entry 10). -/
def Obligations.EncAsFunction : Prop :=
  (∀ s : State, s.ph = .init → hostHolds s = true → s.op = 0xD →
    stateAfter 16 s = some { s with
      blk := (encResult params s.blk s.ks).1, ks := (encResult params s.blk s.ks).2, ph := .idle,
      rnd := 8, stop := 8, dst := .one, rsp := some (.done .empty) } ∧
    ∀ n < 16, ∃ t, stateAfter n s = some t ∧ t.ph.busy = true) ∧
  (∀ (P : Params) (key k : KeyState), k = ⟨scheduleBlock P key 0, scheduleBlock P key 1⟩ →
    (∀ r, 2 ≤ r → r ≤ 8 →
      currentBlock r ((List.range (r - 2)).foldl (fun k j => walkStep P (2 + j) k) k) =
        scheduleBlock P key (r - 1)) ∧
    (∀ b, (encResult P b k).2.slot0 = scheduleBlock P key 8) ∧
    ∀ b, encResult P b k =
      ((subBlock P ([2, 3, 4, 5, 6, 7, 8].foldl (fun x r => P.rt x (scheduleBlock P key (r - 1)) r)
          (b.xor (scheduleBlock P key 0)))).xor (scheduleBlock P key 8),
        ⟨scheduleBlock P key 8, scheduleBlock P key 7⟩))

/-- R167: the micro-steps of DEC, from INIT on, amount to the single function, in 16 steps and not fewer; from a decrypt start key the result is that of adding K[8], substituting, applying IRT with K[7] to K[1] and round operands 8 to 2, and adding K[0], and KS is left with K[0] and K[1]. The count of steps is that of R165 and R253, one step a micro-step being the model's choice (log entry 10). -/
def Obligations.DecAsFunction : Prop :=
  (∀ s : State, s.ph = .init → hostHolds s = true → s.op = 0xE →
    stateAfter 16 s = some { s with
      blk := (decResult params s.blk s.ks).1, ks := (decResult params s.blk s.ks).2, ph := .idle,
      rnd := 2, stop := 2, dst := .one, rsp := some (.done .empty) } ∧
    ∀ n < 16, ∃ t, stateAfter n s = some t ∧ t.ph.busy = true) ∧
  (∀ (P : Params) (key k : KeyState), k = ⟨scheduleBlock P key 8, scheduleBlock P key 7⟩ →
    (∀ r, 2 ≤ r → r ≤ 8 →
      currentBlock r ((List.range (8 - r)).foldl (fun k j => walkStep P (8 - j) k) k) =
        scheduleBlock P key (r - 1)) ∧
    (∀ b, (decResult P b k).2.slot0 = scheduleBlock P key 0) ∧
    ∀ b, decResult P b k =
      (([8, 7, 6, 5, 4, 3, 2].foldl (fun x r => P.irt x (scheduleBlock P key (r - 1)) r)
          (subBlock P (b.xor (scheduleBlock P key 8)))).xor (scheduleBlock P key 0),
        ⟨scheduleBlock P key 0, scheduleBlock P key 1⟩))

/-- R144: ESK then DSKE leaves the same KS as DSK, for every choice of the parameters, and on the machine from every state that is ready and has KS loaded. The end states are named by the 13 and 11 steps that R253's counts give with one step a micro-step, the model's choice (log entry 10). -/
def Obligations.ForwardConsistency : Prop :=
  (∀ (P : Params) (k : KeyState), dskeResult P (eskResult P k) = dskResult P k) ∧
  (∀ s : State, s.ph = .idle → s.kv = true →
    ∃ t u : State,
      stateAfter 13 { s with host := [present .esk .empty, present .dske .empty] } = some t ∧
      stateAfter 11 { s with host := [present .dsk .empty] } = some u ∧
      t.ph = .idle ∧ u.ph = .idle ∧ t.ks = u.ks)

/-- The start keys of a raw key (R141 to R143): ESK gives (K[0], K[1]) in slots (0, 1), DSK gives (K[8], K[7]), and DSKE gives the same from the encrypt start key. -/
def Obligations.StartKeysAreWindows : Prop :=
  ∀ (P : Params) (key : KeyState),
    eskResult P key = ⟨scheduleBlock P key 0, scheduleBlock P key 1⟩ ∧
    dskResult P key = ⟨scheduleBlock P key 8, scheduleBlock P key 7⟩ ∧
    dskeResult P ⟨scheduleBlock P key 0, scheduleBlock P key 1⟩ =
      ⟨scheduleBlock P key 8, scheduleBlock P key 7⟩

/-- What a driver leaves in KS (R166): ENC turns the encrypt start key of a key into its decrypt start key, DEC the other way. -/
def Obligations.SpentKeyState : Prop :=
  ∀ (P : Params) (key : KeyState) (b : Block),
    (encResult P b (eskResult P key)).2 = dskResult P key ∧
    (decResult P b (dskResult P key)).2 = eskResult P key

/-- The round trip (R168, the sufficient direction): for every choice of the parameters with RT_INV and S_INVOL, DEC undoes ENC for every key and block. -/
def Obligations.RoundTrip : Prop :=
  ∀ (P : Params), RtInv P → SInvol P → ∀ (key : KeyState) (X : Block),
    (decResult P (encResult P X (eskResult P key)).1 (dskResult P key)).1 = X

/-- The round trip on the machine (R168): from every ready state, the commands `LDK K ; ESK ; LDB X ; ENC ; LDK K ; DSK ; DEC ; RDB` answer X, for every key K and block X. It rests on the reference parameters (log entries 7 and 8). -/
def Obligations.MachineRoundTrip : Prop :=
  ∀ (s : State) (key : KeyState) (X : Block), s.ph = .idle →
    ∃ t : State,
      stateAfter 53 { s with host :=
        [present .ldk (.keyState key), present .esk .empty, present .ldb (.block X), present .enc .empty,
         present .ldk (.keyState key), present .dsk .empty, present .dec .empty,
         present .rdb .empty] } = some t ∧
      t.rsp = some (.done (.block X)) ∧ t.ph = .idle ∧ t.blk = X ∧ t.ks = eskResult params key

/-! Invariants and whole-machine rules. -/

/-- The invariant holds at reset. -/
def Obligations.InvariantAtReset : Prop := State.reset.inv = true

/-- What the invariant says of R26, R28, R29, R30, R126: FAULT = 1 if and only if PH = HALT, FCODE 0 without a fault and 1 to 4 with one, RND and STOP at most 8, OP a sequenced command while one is in flight and ENC or DEC in APPLY and FINAL, the registers it reads loaded, and DST = RND mod 2 in APPLY and ADVANCE. -/
def Obligations.InvariantMeaning : Prop :=
  ∀ s : State, s.inv = true →
    (s.fault = true ↔ s.ph = .halt) ∧ (s.fault = false → s.fcode = 0) ∧
    (s.fault = true → 1 ≤ s.fcode.toNat ∧ s.fcode.toNat ≤ 4) ∧
    s.rnd.toNat ≤ 8 ∧ s.stop.toNat ≤ 8 ∧
    (s.ph.busy = true → s.op ∈ [0xA, 0xB, 0xC, 0xD, 0xE] ∧ s.kv = true) ∧
    ((s.ph = .apply ∨ s.ph = .final) → (s.op = 0xD ∨ s.op = 0xE) ∧ s.bv = true) ∧
    ((s.ph = .apply ∨ s.ph = .advance) → s.dst = Slot.ofParity s.rnd.toNat)

/-- Every step keeps the invariant. -/
def Obligations.InvariantKept : Prop :=
  ∀ s t : State, s.inv = true → step s = .next t → t.inv = true

/-- From every state of the invariant a step answers a next state: the model never stops on a state a run can reach (R252). -/
def Obligations.NeverStuck : Prop :=
  ∀ s : State, s.inv = true → ∃ t, step s = .next t

/-- A command in flight completes (R253, R254): from every state of the invariant with a command in flight and a host that leaves the core alone, within 16 steps the command answers Done([]) with PH = IDLE, no fault raised and the host's list as it was. -/
def Obligations.InFlightCompletes : Prop :=
  ∀ s : State, s.inv = true → s.ph.busy = true → hostHolds s = true →
    ∃ n ≤ 16, ∃ t, stateAfter n s = some t ∧ t.ph = .idle ∧ t.rsp = some (.done .empty) ∧
      t.fault = false ∧ t.host = s.host ∧ t.kv = s.kv ∧ t.bv = s.bv

/-- The sequencer registers cannot be observed between commands (R29, R38): two states that differ only in them step to two states that differ only in them, with the same response and STATUS. In a step with `rst` asserted, that KS and BLK come out the same rests on what their free contents may depend on, the model's choice (log entry 2). -/
def Obligations.SequencerUnobservable : Prop :=
  ∀ s t : State, s.inv = true → t.inv = true → sameButSequencer s t →
    ∃ s' t', step s = .next s' ∧ step t = .next t' ∧ sameButSequencer s' t' ∧
      t'.rsp = s'.rsp ∧ t'.status = s'.status

/-- The contents of a register nothing has loaded cannot be observed (R24, R35): two states that differ only in them step to two states that differ only in them, with the same response and STATUS. So no response depends on the values of log entry 1. -/
def Obligations.UnloadedUnobservable : Prop :=
  ∀ s t : State, s.inv = true → sameButUnloaded s t →
    ∃ s' t', step s = .next s' ∧ step t = .next t' ∧ sameButUnloaded s' t' ∧
      t'.rsp = s'.rsp ∧ t'.status = s'.status

/-- Control never depends on data (R171, R217): two states that differ only in KS, BLK, the bus, the bus values of the commands the host will present, and the last response, step alike, to states that differ only in them, with the same STATUS, the same `rsp_valid`, and the same response but for the bytes of its payload (`Done` of the same length, or `Faulted` with the same code). -/
def Obligations.ControlIndependentOfData : Prop :=
  ∀ s t s' : State, sameControl s t → step s = .next s' →
    ∃ t', step t = .next t' ∧ sameControl s' t' ∧
      t'.rsp.map Response.shape = s'.rsp.map Response.shape ∧ t'.rspValid = s'.rspValid ∧
      t'.status = s'.status
end

