-- ==== Sys2Proof/Laws/Blocks.lean ====
section
/-! SUPPORT. Block addition, slots, and reading and writing a slot of the key state. -/

namespace Sys2Proof

@[ext] theorem Block.ext' {X Y : Block} (h0 : X.b0 = Y.b0) (h1 : X.b1 = Y.b1) (h2 : X.b2 = Y.b2)
    (h3 : X.b3 = Y.b3) (h4 : X.b4 = Y.b4) (h5 : X.b5 = Y.b5) (h6 : X.b6 = Y.b6) (h7 : X.b7 = Y.b7) :
    X = Y := by
  cases X; cases Y; simp_all

theorem Block.xor_comm (X Y : Block) : X.xor Y = Y.xor X := by
  simp [Block.xor, BitVec.xor_comm]

theorem Block.xor_assoc (X Y Z : Block) : (X.xor Y).xor Z = X.xor (Y.xor Z) := by
  simp [Block.xor, BitVec.xor_assoc]

@[simp] theorem Block.xor_self (X : Block) : X.xor X = Block.zero := by
  simp [Block.xor, Block.zero]

@[simp] theorem Block.xor_zero (X : Block) : X.xor Block.zero = X := by
  simp [Block.xor, Block.zero]

/-- Adding a Block twice undoes the addition. -/
@[simp] theorem Block.xor_xor_cancel (X Y : Block) : (X.xor Y).xor Y = X := by
  rw [Block.xor_assoc, Block.xor_self, Block.xor_zero]

@[simp] theorem Slot.other_other (s : Slot) : s.other.other = s := by cases s <;> rfl

theorem Slot.other_ne (s : Slot) : s.other ≠ s := by cases s <;> decide

@[simp] theorem Slot.ofParity_even {r : Nat} (h : r % 2 = 0) : Slot.ofParity r = .zero := by
  simp [Slot.ofParity, h]

@[simp] theorem Slot.ofParity_odd {r : Nat} (h : r % 2 = 1) : Slot.ofParity r = .one := by
  simp [Slot.ofParity, h]

theorem Slot.ofParity_succ (r : Nat) : Slot.ofParity (r + 1) = (Slot.ofParity r).other := by
  rcases Nat.mod_two_eq_zero_or_one r with h | h
  · rw [Slot.ofParity_odd (by omega), Slot.ofParity_even h]; rfl
  · rw [Slot.ofParity_even (by omega), Slot.ofParity_odd h]; rfl

@[simp] theorem KeyState.get_set_same (k : KeyState) (s : Slot) (X : Block) : (k.set s X).get s = X := by
  cases s <;> rfl

@[simp] theorem KeyState.get_set_other (k : KeyState) (s : Slot) (X : Block) :
    (k.set s X).get s.other = k.get s.other := by
  cases s <;> rfl

@[simp] theorem KeyState.set_set (k : KeyState) (s : Slot) (X Y : Block) :
    (k.set s X).set s Y = k.set s Y := by
  cases s <;> rfl

@[simp] theorem KeyState.set_get (k : KeyState) (s : Slot) : k.set s (k.get s) = k := by
  cases s <;> rfl

end Sys2Proof
end

