-- ==== Sys2Proof/Laws/Operands.lean ====
section
/-! SUPPORT. The lanes of the bus: what a byte put in one lane reads as in every lane. -/

namespace Sys2Proof.Machine

/-- A byte put in lane `j` reads as itself there and as 0 in every other lane. -/
theorem lane_shift (b : Byte) {j k : Nat} (hj : j < 16) (hk : k < 16) :
    lane (b.setWidth 128 <<< (120 - 8 * j)) k = if k = j then b else 0 := by
  apply BitVec.eq_of_getLsbD_eq
  intro i hi
  simp only [lane, BitVec.getLsbD_extractLsb', BitVec.getLsbD_shiftLeft, BitVec.getLsbD_setWidth]
  split
  · rename_i h
    subst h
    have h1 : 120 - 8 * k + i < 128 := by omega
    have h2 : 120 - 8 * k + i - (120 - 8 * k) = i := by omega
    have h3 : i < 128 := by omega
    simp [hi, h1, h2, h3]
  · rename_i h
    rcases Nat.lt_or_gt_of_ne h with h' | h'
    · have : b.getLsbD (120 - 8 * k + i - (120 - 8 * j)) = false :=
        BitVec.getLsbD_of_ge b _ (by omega)
      simp [this]
    · have : 120 - 8 * k + i < 120 - 8 * j := by omega
      simp [this]

/-- A byte sequence put in the lanes from `j` on reads back lane by lane, the other lanes as 0. -/
theorem lane_placeLanes (l : List Byte) {j k : Nat} (hl : j + l.length ≤ 16) (hk : k < 16) :
    lane (placeLanes j l) k = if k < j then 0 else l.getD (k - j) 0 := by
  induction l generalizing j with
  | nil => simp [placeLanes, lane]
  | cons b rest ih =>
    have hj : j < 16 := by simp at hl; omega
    have hor : ∀ x y : Bus, lane (x ||| y) k = lane x k ||| lane y k := by
      intro x y
      simp [lane, BitVec.extractLsb'_or]
    rw [placeLanes, hor, lane_shift b hj hk, ih (by simp at hl; omega)]
    rcases Nat.lt_trichotomy k j with h | h | h
    · simp [h, show k ≠ j by omega, show k < j + 1 by omega]
    · subst h
      simp
    · have h1 : k - j = (k - (j + 1)) + 1 := by omega
      simp [show k ≠ j by omega, show ¬ k < j + 1 by omega, show ¬ k < j by omega, h1]

end Sys2Proof.Machine
end

