-- ==== Sys2Proof/Laws/State.lean ====
section
/-! SUPPORT. One lemma per field per shared update of State, so that no proof unfolds a record update. -/

namespace Sys2Proof.Machine

/-- The range check of R213, passed. -/
@[simp] theorem roundOutOfRange_eq_false {r : Nat} : roundOutOfRange r = false ↔ r ≤ 8 := by
  simp only [roundOutOfRange, decide_eq_false_iff_not]
  simp [Config.R]

/-- The range check of R213, failed. -/
@[simp] theorem roundOutOfRange_eq_true {r : Nat} : roundOutOfRange r = true ↔ 8 < r := by
  simp only [roundOutOfRange, decide_eq_true_eq]
  simp [Config.R]

/-! Fields after `raiseFault`. -/

@[simp] theorem raiseFault_ks (c : FaultCause) (s : State) : (raiseFault c s).ks = s.ks := rfl
@[simp] theorem raiseFault_blk (c : FaultCause) (s : State) : (raiseFault c s).blk = s.blk := rfl
@[simp] theorem raiseFault_kv (c : FaultCause) (s : State) : (raiseFault c s).kv = s.kv := rfl
@[simp] theorem raiseFault_bv (c : FaultCause) (s : State) : (raiseFault c s).bv = s.bv := rfl
@[simp] theorem raiseFault_op (c : FaultCause) (s : State) : (raiseFault c s).op = s.op := rfl
@[simp] theorem raiseFault_ph (c : FaultCause) (s : State) : (raiseFault c s).ph = .halt := rfl
@[simp] theorem raiseFault_rnd (c : FaultCause) (s : State) : (raiseFault c s).rnd = s.rnd := rfl
@[simp] theorem raiseFault_stop (c : FaultCause) (s : State) : (raiseFault c s).stop = s.stop := rfl
@[simp] theorem raiseFault_dst (c : FaultCause) (s : State) : (raiseFault c s).dst = s.dst := rfl
@[simp] theorem raiseFault_fault (c : FaultCause) (s : State) : (raiseFault c s).fault = true := rfl
@[simp] theorem raiseFault_fcode (c : FaultCause) (s : State) : (raiseFault c s).fcode = c.code := rfl
@[simp] theorem raiseFault_wdata (c : FaultCause) (s : State) : (raiseFault c s).wdata = s.wdata := rfl
@[simp] theorem raiseFault_rsp (c : FaultCause) (s : State) : (raiseFault c s).rsp = some (.faulted c.code) := rfl
@[simp] theorem raiseFault_host (c : FaultCause) (s : State) : (raiseFault c s).host = s.host := rfl
@[simp] theorem raiseFault_resets (c : FaultCause) (s : State) : (raiseFault c s).resets = s.resets := rfl

/-! Fields after `complete`. -/

@[simp] theorem complete_ks (p : Payload) (s : State) : (complete p s).ks = s.ks := rfl
@[simp] theorem complete_blk (p : Payload) (s : State) : (complete p s).blk = s.blk := rfl
@[simp] theorem complete_kv (p : Payload) (s : State) : (complete p s).kv = s.kv := rfl
@[simp] theorem complete_bv (p : Payload) (s : State) : (complete p s).bv = s.bv := rfl
@[simp] theorem complete_op (p : Payload) (s : State) : (complete p s).op = s.op := rfl
@[simp] theorem complete_ph (p : Payload) (s : State) : (complete p s).ph = s.ph := rfl
@[simp] theorem complete_rnd (p : Payload) (s : State) : (complete p s).rnd = s.rnd := rfl
@[simp] theorem complete_stop (p : Payload) (s : State) : (complete p s).stop = s.stop := rfl
@[simp] theorem complete_dst (p : Payload) (s : State) : (complete p s).dst = s.dst := rfl
@[simp] theorem complete_fault (p : Payload) (s : State) : (complete p s).fault = s.fault := rfl
@[simp] theorem complete_fcode (p : Payload) (s : State) : (complete p s).fcode = s.fcode := rfl
@[simp] theorem complete_wdata (p : Payload) (s : State) : (complete p s).wdata = s.wdata := rfl
@[simp] theorem complete_rsp (p : Payload) (s : State) : (complete p s).rsp = some (.done p) := rfl
@[simp] theorem complete_host (p : Payload) (s : State) : (complete p s).host = s.host := rfl
@[simp] theorem complete_resets (p : Payload) (s : State) : (complete p s).resets = s.resets := rfl

/-! Fields after `noResponse`. -/

@[simp] theorem noResponse_ks (s : State) : (noResponse s).ks = s.ks := rfl
@[simp] theorem noResponse_blk (s : State) : (noResponse s).blk = s.blk := rfl
@[simp] theorem noResponse_kv (s : State) : (noResponse s).kv = s.kv := rfl
@[simp] theorem noResponse_bv (s : State) : (noResponse s).bv = s.bv := rfl
@[simp] theorem noResponse_op (s : State) : (noResponse s).op = s.op := rfl
@[simp] theorem noResponse_ph (s : State) : (noResponse s).ph = s.ph := rfl
@[simp] theorem noResponse_rnd (s : State) : (noResponse s).rnd = s.rnd := rfl
@[simp] theorem noResponse_stop (s : State) : (noResponse s).stop = s.stop := rfl
@[simp] theorem noResponse_dst (s : State) : (noResponse s).dst = s.dst := rfl
@[simp] theorem noResponse_fault (s : State) : (noResponse s).fault = s.fault := rfl
@[simp] theorem noResponse_fcode (s : State) : (noResponse s).fcode = s.fcode := rfl
@[simp] theorem noResponse_wdata (s : State) : (noResponse s).wdata = s.wdata := rfl
@[simp] theorem noResponse_rsp (s : State) : (noResponse s).rsp = none := rfl
@[simp] theorem noResponse_host (s : State) : (noResponse s).host = s.host := rfl
@[simp] theorem noResponse_resets (s : State) : (noResponse s).resets = s.resets := rfl

/-! Fields after `startSequence`. -/

@[simp] theorem startSequence_ks (o : BitVec 4) (s : State) : (startSequence o s).ks = s.ks := rfl
@[simp] theorem startSequence_blk (o : BitVec 4) (s : State) : (startSequence o s).blk = s.blk := rfl
@[simp] theorem startSequence_kv (o : BitVec 4) (s : State) : (startSequence o s).kv = s.kv := rfl
@[simp] theorem startSequence_bv (o : BitVec 4) (s : State) : (startSequence o s).bv = s.bv := rfl
@[simp] theorem startSequence_op (o : BitVec 4) (s : State) : (startSequence o s).op = o := rfl
@[simp] theorem startSequence_ph (o : BitVec 4) (s : State) : (startSequence o s).ph = .init := rfl
@[simp] theorem startSequence_rnd (o : BitVec 4) (s : State) : (startSequence o s).rnd = s.rnd := rfl
@[simp] theorem startSequence_stop (o : BitVec 4) (s : State) : (startSequence o s).stop = s.stop := rfl
@[simp] theorem startSequence_dst (o : BitVec 4) (s : State) : (startSequence o s).dst = s.dst := rfl
@[simp] theorem startSequence_fault (o : BitVec 4) (s : State) : (startSequence o s).fault = s.fault := rfl
@[simp] theorem startSequence_fcode (o : BitVec 4) (s : State) : (startSequence o s).fcode = s.fcode := rfl
@[simp] theorem startSequence_wdata (o : BitVec 4) (s : State) : (startSequence o s).wdata = s.wdata := rfl
@[simp] theorem startSequence_rsp (o : BitVec 4) (s : State) : (startSequence o s).rsp = none := rfl
@[simp] theorem startSequence_host (o : BitVec 4) (s : State) : (startSequence o s).host = s.host := rfl
@[simp] theorem startSequence_resets (o : BitVec 4) (s : State) : (startSequence o s).resets = s.resets := rfl

/-! Fields after `applyReset`. -/

@[simp] theorem applyReset_ks (s : State) : (applyReset s).ks = Config.resetKey s.resets s.ks s.blk := rfl
@[simp] theorem applyReset_blk (s : State) : (applyReset s).blk = Config.resetBlock s.resets s.ks s.blk := rfl
@[simp] theorem applyReset_kv (s : State) : (applyReset s).kv = false := rfl
@[simp] theorem applyReset_bv (s : State) : (applyReset s).bv = false := rfl
@[simp] theorem applyReset_op (s : State) : (applyReset s).op = 0 := rfl
@[simp] theorem applyReset_ph (s : State) : (applyReset s).ph = .idle := rfl
@[simp] theorem applyReset_rnd (s : State) : (applyReset s).rnd = 0 := rfl
@[simp] theorem applyReset_stop (s : State) : (applyReset s).stop = 0 := rfl
@[simp] theorem applyReset_dst (s : State) : (applyReset s).dst = .zero := rfl
@[simp] theorem applyReset_fault (s : State) : (applyReset s).fault = false := rfl
@[simp] theorem applyReset_fcode (s : State) : (applyReset s).fcode = 0 := rfl
@[simp] theorem applyReset_wdata (s : State) : (applyReset s).wdata = s.wdata := rfl
@[simp] theorem applyReset_rsp (s : State) : (applyReset s).rsp = none := rfl
@[simp] theorem applyReset_host (s : State) : (applyReset s).host = s.host := rfl
@[simp] theorem applyReset_resets (s : State) : (applyReset s).resets = s.resets + 1 := rfl

end Sys2Proof.Machine
end

