-- ==== Sys2Proof/Laws/Ops.lean ====
section
/-! SUPPORT. The shared operations of acceptance: what the checks find, what an accepted command answers, and exec as one acceptance per command. -/

namespace Sys2Proof.Machine

/-- The checks of R220 pass. -/
theorem firstFault_none {c : Checks} {s : State} :
    firstFault c s = none ↔
      (c.round.any roundOutOfRange = false) ∧ (c.readsKS = true → s.kv = true) ∧
        (c.readsBLK = true → s.bv = true) := by
  unfold firstFault
  split
  · simp_all
  · split
    · simp_all
    · split <;> simp_all

/-- Acceptance in IDLE with every check passed has the command's effect. -/
theorem accept_of_ready {c : Checks} {s : State} {e : State → State} (hp : s.ph = .idle)
    (h : firstFault c s = none) : accept c s e = .next (e s) := by
  simp [accept, hp, h]

/-- Acceptance in IDLE with a failing check enters the fault. -/
theorem accept_of_fault {c : Checks} {s : State} {e : State → State} {cause : FaultCause}
    (hp : s.ph = .idle) (h : firstFault c s = some cause) :
    accept c s e = .next (raiseFault cause s) := by
  simp [accept, hp, h]

/-- Outside IDLE nothing is accepted. -/
theorem accept_of_busy {c : Checks} {s : State} {e : State → State} (hp : s.ph ≠ .idle) :
    accept c s e = .refused .notReady := by
  simp [accept, hp]

/-- Everything an acceptance that answers a next state can be. -/
theorem accept_cases {c : Checks} {s t : State} {e : State → State} (h : accept c s e = .next t) :
    s.ph = .idle ∧
      ((∃ cause, firstFault c s = some cause ∧ t = raiseFault cause s) ∨
        (firstFault c s = none ∧ t = e s)) := by
  unfold accept at h
  split at h
  · rename_i hp
    refine ⟨hp, ?_⟩
    split at h <;> cases h <;> simp_all
  · cases h

/-- What a command checks at acceptance, read off the lists of R213 to R215. -/
def checksOf (i : Instr) : Checks :=
  { round := i.roundOperand, readsKS := i.readsKS, readsBLK := i.readsBLK }

/-- What a command does once its checks have passed. -/
def effectOf : Instr → State → State
  | .ldk, t => complete .empty { t with ks := inKeyState t.wdata, kv := true }
  | .ldb, t => complete .empty { t with blk := inBlock t.wdata, bv := true }
  | .rdk, t => complete (.keyState t.ks) t
  | .rdb, t => complete (.block t.blk) t
  | .sub imm8, t => complete (.byte (S params imm8)) t
  | .subblk, t => complete .empty { t with blk := subBlock params t.blk }
  | .rcb round index, t => complete (.byte (rcByte params round index)) t
  | .stepf sl r, t => stepKey sl r t
  | .stepb sl r, t => stepKey sl r t
  | .esk, t => startSequence SeqCommand.esk.opcode t
  | .dsk, t => startSequence SeqCommand.dsk.opcode t
  | .dske, t => startSequence SeqCommand.dske.opcode t
  | .enc, t => startSequence SeqCommand.enc.opcode t
  | .dec, t => startSequence SeqCommand.dec.opcode t

/-- Every command is one acceptance with its own checks and effect. -/
theorem exec_eq_accept (i : Instr) (s : State) : exec i s = accept (checksOf i) s (effectOf i) := by
  cases i <;> rfl

/-- What no command's own effect changes: FAULT, FCODE, STOP, RND, DST, the bus, the host's list. PH stays or becomes INIT, and the valid bits are never cleared. -/
theorem effectOf_frame (i : Instr) (s : State) :
    (effectOf i s).fault = s.fault ∧ (effectOf i s).fcode = s.fcode ∧ (effectOf i s).rnd = s.rnd ∧
      (effectOf i s).stop = s.stop ∧ (effectOf i s).dst = s.dst ∧ (effectOf i s).wdata = s.wdata ∧
      (effectOf i s).host = s.host ∧ (effectOf i s).resets = s.resets ∧
      ((effectOf i s).ph = s.ph ∨ (effectOf i s).ph = .init) ∧
      (s.kv = true → (effectOf i s).kv = true) ∧ (s.bv = true → (effectOf i s).bv = true) := by
  cases i <;> simp [effectOf, stepKey]

/-- Everything a command that answers a next state can do. -/
theorem exec_cases {i : Instr} {s t : State} (h : exec i s = .next t) :
    s.ph = .idle ∧
      ((∃ cause, firstFault (checksOf i) s = some cause ∧ t = raiseFault cause s) ∨
        (firstFault (checksOf i) s = none ∧ t = effectOf i s)) := by
  rw [exec_eq_accept] at h
  exact accept_cases h

/-- A command in IDLE always answers a next state. -/
theorem exec_of_idle {i : Instr} {s : State} (h : s.ph = .idle) : ∃ t, exec i s = .next t := by
  rw [exec_eq_accept]
  cases hc : firstFault (checksOf i) s with
  | none => exact ⟨_, accept_of_ready h hc⟩
  | some c => exact ⟨_, accept_of_fault h hc⟩

/-! The shapes that `sameControl` compares. -/

@[simp] theorem HostAction.shape_command (w : CmdWord) (d : Bus) : (HostAction.command w d).shape = .command w 0 := rfl
@[simp] theorem HostAction.shape_wait : HostAction.wait.shape = .wait := rfl
@[simp] theorem HostAction.shape_reset : HostAction.reset.shape = .reset := rfl
@[simp] theorem Response.shape_done (p : Payload) : (Response.done p).shape = .done p.shape := rfl
@[simp] theorem Response.shape_faulted (code : BitVec 3) : (Response.faulted code).shape = .faulted code := rfl
@[simp] theorem Payload.shape_empty : Payload.empty.shape = .empty := rfl

/-- A payload keeps its length when its data is taken away (R73). -/
@[simp] theorem Payload.shape_bytes_length (p : Payload) : p.shape.bytes.length = p.bytes.length := by
  cases p <;> rfl

/-- Responses of one shape agree on `rsp_valid`. -/
theorem rspValid_of_shape {s t : State} (h : t.rsp.map Response.shape = s.rsp.map Response.shape) :
    t.rspValid = s.rspValid := by
  unfold State.rspValid
  rcases ht : t.rsp with _ | ⟨_ | _⟩ <;> rcases hs : s.rsp with _ | ⟨_ | _⟩ <;> simp_all

/-- States with the same control agree on every register of control. -/
theorem sameControl_fields {s t : State} (h : sameControl s t) :
    t.ph = s.ph ∧ t.kv = s.kv ∧ t.bv = s.bv ∧ t.op = s.op ∧ t.rnd = s.rnd ∧ t.stop = s.stop ∧
      t.dst = s.dst ∧ t.status = s.status ∧ t.resets = s.resets := by
  rw [h.1]
  simp [State.status, State.busy]

end Sys2Proof.Machine
end

