-- ==== Sys2Proof/Laws/PerInstr.lean ====
section
/-! SUPPORT. Families of statements per command. EncodesToRow: the word of a well-formed command lies in the command's row of the opcode map. -/

namespace Sys2Proof.Laws.EncodesToRow

/-- The word of the command, masked, is the row's pattern (R74). -/
def Statement (i : Instr) : Prop := i.wellFormed = true → encode i &&& i.row.mask = i.row.pattern

theorem ldk : Statement .ldk := fun _ => by decide
theorem ldb : Statement .ldb := fun _ => by decide
theorem rdk : Statement .rdk := fun _ => by decide
theorem rdb : Statement .rdb := fun _ => by decide
theorem sub (imm8 : Byte) : Statement (.sub imm8) := by
  have all : ∀ b : Byte, encode (.sub b) &&& (0xFF00 : CmdWord) = 0x5000 := by decide
  exact fun _ => all imm8
theorem subblk : Statement .subblk := fun _ => by decide
theorem rcb (round index : Nat) : Statement (.rcb round index) := by
  have all : ∀ a < 16, ∀ b < 8, encode (.rcb a b) &&& (0xFF80 : CmdWord) = 0x7000 := by decide
  intro h
  simp only [Instr.wellFormed, Bool.and_eq_true, decide_eq_true_eq] at h
  exact all round h.1 index h.2
theorem stepf (s : Slot) (r : Nat) : Statement (.stepf s r) := by
  have all : ∀ a < 16, encode (.stepf s a) &&& (0xFFE0 : CmdWord) = 0x8000 := by cases s <;> decide
  intro h
  exact all r (by simpa [Instr.wellFormed] using h)
theorem stepb (s : Slot) (r : Nat) : Statement (.stepb s r) := by
  have all : ∀ a < 16, encode (.stepb s a) &&& (0xFFE0 : CmdWord) = 0x9000 := by cases s <;> decide
  intro h
  exact all r (by simpa [Instr.wellFormed] using h)
theorem esk : Statement .esk := fun _ => by decide
theorem dsk : Statement .dsk := fun _ => by decide
theorem dske : Statement .dske := fun _ => by decide
theorem enc : Statement .enc := fun _ => by decide
theorem dec : Statement .dec := fun _ => by decide

end Sys2Proof.Laws.EncodesToRow
end

