-- ==== Sys2Proof/Laws/Sequencer.lean ====
section
/-! SUPPORT. The micro-steps: one lemma per field per micro-step, and one inversion lemma that says once everything a micro-step can do. -/

namespace Sys2Proof.Machine

open Sys2Proof.Config (Params)

@[simp] theorem seqCommandOf_opcode (c : SeqCommand) : seqCommandOf c.opcode = some c := by
  cases c <;> rfl

theorem opcode_of_seqCommandOf {op : BitVec 4} {c : SeqCommand} (h : seqCommandOf op = some c) :
    op = c.opcode := by
  have all : ∀ op : BitVec 4, ∀ c, seqCommandOf op = some c → op = c.opcode := by
    intro op c
    revert op
    cases c <;> decide
  exact all op c h

/-! Fields after `initDerivation`. -/

@[simp] theorem initDerivation_ks (a b : BitVec 4) (s : State) : (initDerivation a b s).ks = s.ks := rfl
@[simp] theorem initDerivation_blk (a b : BitVec 4) (s : State) : (initDerivation a b s).blk = s.blk := rfl
@[simp] theorem initDerivation_kv (a b : BitVec 4) (s : State) : (initDerivation a b s).kv = s.kv := rfl
@[simp] theorem initDerivation_bv (a b : BitVec 4) (s : State) : (initDerivation a b s).bv = s.bv := rfl
@[simp] theorem initDerivation_op (a b : BitVec 4) (s : State) : (initDerivation a b s).op = s.op := rfl
@[simp] theorem initDerivation_ph (a b : BitVec 4) (s : State) : (initDerivation a b s).ph = .advance := rfl
@[simp] theorem initDerivation_rnd (a b : BitVec 4) (s : State) : (initDerivation a b s).rnd = a := rfl
@[simp] theorem initDerivation_stop (a b : BitVec 4) (s : State) : (initDerivation a b s).stop = b := rfl
@[simp] theorem initDerivation_dst (a b : BitVec 4) (s : State) : (initDerivation a b s).dst = .zero := rfl
@[simp] theorem initDerivation_fault (a b : BitVec 4) (s : State) : (initDerivation a b s).fault = s.fault := rfl
@[simp] theorem initDerivation_fcode (a b : BitVec 4) (s : State) : (initDerivation a b s).fcode = s.fcode := rfl
@[simp] theorem initDerivation_wdata (a b : BitVec 4) (s : State) : (initDerivation a b s).wdata = s.wdata := rfl
@[simp] theorem initDerivation_rsp (a b : BitVec 4) (s : State) : (initDerivation a b s).rsp = none := rfl
@[simp] theorem initDerivation_host (a b : BitVec 4) (s : State) : (initDerivation a b s).host = s.host := rfl
@[simp] theorem initDerivation_resets (a b : BitVec 4) (s : State) : (initDerivation a b s).resets = s.resets := rfl

/-! Fields after `initEnc`. -/

@[simp] theorem initEnc_ks (s : State) : (initEnc s).ks = s.ks := rfl
@[simp] theorem initEnc_blk (s : State) : (initEnc s).blk = s.blk.xor s.ks.slot0 := rfl
@[simp] theorem initEnc_kv (s : State) : (initEnc s).kv = s.kv := rfl
@[simp] theorem initEnc_bv (s : State) : (initEnc s).bv = s.bv := rfl
@[simp] theorem initEnc_op (s : State) : (initEnc s).op = s.op := rfl
@[simp] theorem initEnc_ph (s : State) : (initEnc s).ph = .apply := rfl
@[simp] theorem initEnc_rnd (s : State) : (initEnc s).rnd = 2 := rfl
@[simp] theorem initEnc_stop (s : State) : (initEnc s).stop = 8 := rfl
@[simp] theorem initEnc_dst (s : State) : (initEnc s).dst = .zero := rfl
@[simp] theorem initEnc_fault (s : State) : (initEnc s).fault = s.fault := rfl
@[simp] theorem initEnc_fcode (s : State) : (initEnc s).fcode = s.fcode := rfl
@[simp] theorem initEnc_wdata (s : State) : (initEnc s).wdata = s.wdata := rfl
@[simp] theorem initEnc_rsp (s : State) : (initEnc s).rsp = none := rfl
@[simp] theorem initEnc_host (s : State) : (initEnc s).host = s.host := rfl
@[simp] theorem initEnc_resets (s : State) : (initEnc s).resets = s.resets := rfl

/-! Fields after `initDec`. -/

@[simp] theorem initDec_ks (P : Params) (s : State) : (initDec P s).ks = s.ks := rfl
@[simp] theorem initDec_blk (P : Params) (s : State) : (initDec P s).blk = subBlock P (s.blk.xor s.ks.slot0) := rfl
@[simp] theorem initDec_kv (P : Params) (s : State) : (initDec P s).kv = s.kv := rfl
@[simp] theorem initDec_bv (P : Params) (s : State) : (initDec P s).bv = s.bv := rfl
@[simp] theorem initDec_op (P : Params) (s : State) : (initDec P s).op = s.op := rfl
@[simp] theorem initDec_ph (P : Params) (s : State) : (initDec P s).ph = .apply := rfl
@[simp] theorem initDec_rnd (P : Params) (s : State) : (initDec P s).rnd = 8 := rfl
@[simp] theorem initDec_stop (P : Params) (s : State) : (initDec P s).stop = 2 := rfl
@[simp] theorem initDec_dst (P : Params) (s : State) : (initDec P s).dst = .zero := rfl
@[simp] theorem initDec_fault (P : Params) (s : State) : (initDec P s).fault = s.fault := rfl
@[simp] theorem initDec_fcode (P : Params) (s : State) : (initDec P s).fcode = s.fcode := rfl
@[simp] theorem initDec_wdata (P : Params) (s : State) : (initDec P s).wdata = s.wdata := rfl
@[simp] theorem initDec_rsp (P : Params) (s : State) : (initDec P s).rsp = none := rfl
@[simp] theorem initDec_host (P : Params) (s : State) : (initDec P s).host = s.host := rfl
@[simp] theorem initDec_resets (P : Params) (s : State) : (initDec P s).resets = s.resets := rfl

/-! Fields after `applyEnc`. -/

@[simp] theorem applyEnc_ks (P : Params) (s : State) : (applyEnc P s).ks = s.ks := rfl
@[simp] theorem applyEnc_blk (P : Params) (s : State) : (applyEnc P s).blk = P.rt s.blk (s.ks.get s.dst.other) s.rnd.toNat := rfl
@[simp] theorem applyEnc_kv (P : Params) (s : State) : (applyEnc P s).kv = s.kv := rfl
@[simp] theorem applyEnc_bv (P : Params) (s : State) : (applyEnc P s).bv = s.bv := rfl
@[simp] theorem applyEnc_op (P : Params) (s : State) : (applyEnc P s).op = s.op := rfl
@[simp] theorem applyEnc_ph (P : Params) (s : State) : (applyEnc P s).ph = .advance := rfl
@[simp] theorem applyEnc_rnd (P : Params) (s : State) : (applyEnc P s).rnd = s.rnd := rfl
@[simp] theorem applyEnc_stop (P : Params) (s : State) : (applyEnc P s).stop = s.stop := rfl
@[simp] theorem applyEnc_dst (P : Params) (s : State) : (applyEnc P s).dst = s.dst := rfl
@[simp] theorem applyEnc_fault (P : Params) (s : State) : (applyEnc P s).fault = s.fault := rfl
@[simp] theorem applyEnc_fcode (P : Params) (s : State) : (applyEnc P s).fcode = s.fcode := rfl
@[simp] theorem applyEnc_wdata (P : Params) (s : State) : (applyEnc P s).wdata = s.wdata := rfl
@[simp] theorem applyEnc_rsp (P : Params) (s : State) : (applyEnc P s).rsp = none := rfl
@[simp] theorem applyEnc_host (P : Params) (s : State) : (applyEnc P s).host = s.host := rfl
@[simp] theorem applyEnc_resets (P : Params) (s : State) : (applyEnc P s).resets = s.resets := rfl

/-! Fields after `applyDec`. -/

@[simp] theorem applyDec_ks (P : Params) (s : State) : (applyDec P s).ks = s.ks := rfl
@[simp] theorem applyDec_blk (P : Params) (s : State) : (applyDec P s).blk = P.irt s.blk (s.ks.get s.dst.other) s.rnd.toNat := rfl
@[simp] theorem applyDec_kv (P : Params) (s : State) : (applyDec P s).kv = s.kv := rfl
@[simp] theorem applyDec_bv (P : Params) (s : State) : (applyDec P s).bv = s.bv := rfl
@[simp] theorem applyDec_op (P : Params) (s : State) : (applyDec P s).op = s.op := rfl
@[simp] theorem applyDec_ph (P : Params) (s : State) : (applyDec P s).ph = .advance := rfl
@[simp] theorem applyDec_rnd (P : Params) (s : State) : (applyDec P s).rnd = s.rnd := rfl
@[simp] theorem applyDec_stop (P : Params) (s : State) : (applyDec P s).stop = s.stop := rfl
@[simp] theorem applyDec_dst (P : Params) (s : State) : (applyDec P s).dst = s.dst := rfl
@[simp] theorem applyDec_fault (P : Params) (s : State) : (applyDec P s).fault = s.fault := rfl
@[simp] theorem applyDec_fcode (P : Params) (s : State) : (applyDec P s).fcode = s.fcode := rfl
@[simp] theorem applyDec_wdata (P : Params) (s : State) : (applyDec P s).wdata = s.wdata := rfl
@[simp] theorem applyDec_rsp (P : Params) (s : State) : (applyDec P s).rsp = none := rfl
@[simp] theorem applyDec_host (P : Params) (s : State) : (applyDec P s).host = s.host := rfl
@[simp] theorem applyDec_resets (P : Params) (s : State) : (applyDec P s).resets = s.resets := rfl

/-! Fields after `finalEnc`. -/

@[simp] theorem finalEnc_ks (P : Params) (s : State) : (finalEnc P s).ks = s.ks := rfl
@[simp] theorem finalEnc_blk (P : Params) (s : State) : (finalEnc P s).blk = (subBlock P s.blk).xor (s.ks.get s.dst.other) := rfl
@[simp] theorem finalEnc_kv (P : Params) (s : State) : (finalEnc P s).kv = s.kv := rfl
@[simp] theorem finalEnc_bv (P : Params) (s : State) : (finalEnc P s).bv = s.bv := rfl
@[simp] theorem finalEnc_op (P : Params) (s : State) : (finalEnc P s).op = s.op := rfl
@[simp] theorem finalEnc_ph (P : Params) (s : State) : (finalEnc P s).ph = .idle := rfl
@[simp] theorem finalEnc_rnd (P : Params) (s : State) : (finalEnc P s).rnd = s.rnd := rfl
@[simp] theorem finalEnc_stop (P : Params) (s : State) : (finalEnc P s).stop = s.stop := rfl
@[simp] theorem finalEnc_dst (P : Params) (s : State) : (finalEnc P s).dst = s.dst := rfl
@[simp] theorem finalEnc_fault (P : Params) (s : State) : (finalEnc P s).fault = s.fault := rfl
@[simp] theorem finalEnc_fcode (P : Params) (s : State) : (finalEnc P s).fcode = s.fcode := rfl
@[simp] theorem finalEnc_wdata (P : Params) (s : State) : (finalEnc P s).wdata = s.wdata := rfl
@[simp] theorem finalEnc_rsp (P : Params) (s : State) : (finalEnc P s).rsp = some (.done .empty) := rfl
@[simp] theorem finalEnc_host (P : Params) (s : State) : (finalEnc P s).host = s.host := rfl
@[simp] theorem finalEnc_resets (P : Params) (s : State) : (finalEnc P s).resets = s.resets := rfl

/-! Fields after `finalDec`. -/

@[simp] theorem finalDec_ks (s : State) : (finalDec s).ks = s.ks := rfl
@[simp] theorem finalDec_blk (s : State) : (finalDec s).blk = s.blk.xor (s.ks.get s.dst.other) := rfl
@[simp] theorem finalDec_kv (s : State) : (finalDec s).kv = s.kv := rfl
@[simp] theorem finalDec_bv (s : State) : (finalDec s).bv = s.bv := rfl
@[simp] theorem finalDec_op (s : State) : (finalDec s).op = s.op := rfl
@[simp] theorem finalDec_ph (s : State) : (finalDec s).ph = .idle := rfl
@[simp] theorem finalDec_rnd (s : State) : (finalDec s).rnd = s.rnd := rfl
@[simp] theorem finalDec_stop (s : State) : (finalDec s).stop = s.stop := rfl
@[simp] theorem finalDec_dst (s : State) : (finalDec s).dst = s.dst := rfl
@[simp] theorem finalDec_fault (s : State) : (finalDec s).fault = s.fault := rfl
@[simp] theorem finalDec_fcode (s : State) : (finalDec s).fcode = s.fcode := rfl
@[simp] theorem finalDec_wdata (s : State) : (finalDec s).wdata = s.wdata := rfl
@[simp] theorem finalDec_rsp (s : State) : (finalDec s).rsp = some (.done .empty) := rfl
@[simp] theorem finalDec_host (s : State) : (finalDec s).host = s.host := rfl
@[simp] theorem finalDec_resets (s : State) : (finalDec s).resets = s.resets := rfl

/-- The last ADVANCE of ENC and DEC goes on to FINAL. -/
theorem advance_last_driver (P : Params) (c : SeqCommand) (s : State) (h : s.rnd = s.stop)
    (hc : c = .enc ∨ c = .dec) :
    advance P c s =
      { s with ks := xstep P s.dst s.rnd.toNat s.ks, dst := s.dst.other, ph := .final, rsp := none } := by
  rcases hc with rfl | rfl <;> simp [advance, endOfWalk, h]

/-- The last ADVANCE of a derivation completes the command. -/
theorem advance_last_derivation (P : Params) (c : SeqCommand) (s : State) (h : s.rnd = s.stop)
    (hc : c ≠ .enc) (hd : c ≠ .dec) :
    advance P c s =
      { s with
        ks := xstep P s.dst s.rnd.toNat s.ks, dst := s.dst.other, ph := .idle,
        rsp := some (.done .empty) } := by
  cases c <;> simp_all [advance, endOfWalk, complete]

/-- An ADVANCE that is not the last. -/
theorem advance_more (P : Params) (c : SeqCommand) (s : State) (h : s.rnd ≠ s.stop) :
    advance P c s =
      { s with
        ks := xstep P s.dst s.rnd.toNat s.ks, dst := s.dst.other, rnd := nextRound c s.rnd,
        ph := phaseAfterAdvance c, rsp := none } := by
  simp [advance, h]

/-- Everything a micro-step that answers a next state can be. -/
theorem microStep_cases {P : Params} {s t : State} (h : microStep P s = .next t) :
    (∃ c, s.ph = .init ∧ s.op = c.opcode ∧ t = microInit P c s) ∨
    (s.ph = .apply ∧ s.op = SeqCommand.enc.opcode ∧ s.rnd.toNat ≤ 8 ∧ t = applyEnc P s) ∨
    (s.ph = .apply ∧ s.op = SeqCommand.dec.opcode ∧ s.rnd.toNat ≤ 8 ∧ t = applyDec P s) ∨
    (∃ c, s.ph = .advance ∧ s.op = c.opcode ∧ s.rnd.toNat ≤ 8 ∧ t = advance P c s) ∨
    (s.ph = .final ∧ s.op = SeqCommand.enc.opcode ∧ t = finalEnc P s) ∨
    (s.ph = .final ∧ s.op = SeqCommand.dec.opcode ∧ t = finalDec s) := by
  unfold microStep at h
  split at h
  case h_1 c hp hc =>
    cases h
    exact .inl ⟨c, hp, opcode_of_seqCommandOf hc, rfl⟩
  case h_2 hp hc =>
    split at h
    · cases h
    · cases h
      exact .inr (.inl ⟨hp, opcode_of_seqCommandOf hc, by simp_all, rfl⟩)
  case h_3 hp hc =>
    split at h
    · cases h
    · cases h
      exact .inr (.inr (.inl ⟨hp, opcode_of_seqCommandOf hc, by simp_all, rfl⟩))
  case h_4 c hp hc =>
    split at h
    · cases h
    · cases h
      exact .inr (.inr (.inr (.inl
        ⟨c, hp, opcode_of_seqCommandOf hc, by simp_all, rfl⟩)))
  case h_5 hp hc =>
    cases h
    exact .inr (.inr (.inr (.inr (.inl ⟨hp, opcode_of_seqCommandOf hc, rfl⟩))))
  case h_6 hp hc =>
    cases h
    exact .inr (.inr (.inr (.inr (.inr ⟨hp, opcode_of_seqCommandOf hc, rfl⟩))))
  case h_7 => cases h

/-- A micro-step leaves the valid bits, FAULT, FCODE, OP, the bus and the host's list alone. -/
theorem microStep_frame {P : Params} {s t : State} (h : microStep P s = .next t) :
    t.kv = s.kv ∧ t.bv = s.bv ∧ t.fault = s.fault ∧ t.fcode = s.fcode ∧ t.op = s.op ∧
      t.wdata = s.wdata ∧ t.host = s.host ∧ t.resets = s.resets := by
  rcases microStep_cases h with ⟨c, -, -, rfl⟩ | ⟨-, -, -, rfl⟩ | ⟨-, -, -, rfl⟩ | ⟨c, -, -, -, rfl⟩ |
    ⟨-, -, rfl⟩ | ⟨-, -, rfl⟩
  · cases c <;> simp [microInit]
  · simp
  · simp
  · unfold advance
    cases c <;> split <;> simp [endOfWalk]
  · simp
  · simp

/-- No micro-step halts the core (R171). -/
theorem microStep_ph {P : Params} {s t : State} (h : microStep P s = .next t) : t.ph ≠ .halt := by
  rcases microStep_cases h with ⟨c, -, -, rfl⟩ | ⟨-, -, -, rfl⟩ | ⟨-, -, -, rfl⟩ | ⟨c, -, -, -, rfl⟩ |
    ⟨-, -, rfl⟩ | ⟨-, -, rfl⟩
  · cases c <;> simp [microInit]
  · simp
  · simp
  · unfold advance
    cases c <;> split <;> simp [endOfWalk, phaseAfterAdvance]
  · simp
  · simp

/-- A function on the next state, faults and refusals left alone. -/
def mapNext (f : State → State) : Outcome → Outcome
  | .next t => .next (f t)
  | .fault r => .fault r
  | .refused r => .refused r

@[simp] theorem mapNext_next (f : State → State) (t : State) : mapNext f (.next t) = .next (f t) := rfl

/-- A micro-step neither reads nor writes the host's list. -/
theorem microStep_withHost (P : Params) (s : State) (l : List HostAction) :
    microStep P { s with host := l } = mapNext (fun t => { t with host := l }) (microStep P s) := by
  obtain ⟨ks, blk, kv, bv, op, ph, rnd, stop, dst, fault, fcode, wdata, rsp, host, resets⟩ := s
  cases ph <;> cases hc : seqCommandOf op with
  | none => simp [microStep, hc, mapNext]
  | some c =>
    cases c <;>
      simp [microStep, hc, mapNext, microInit, initDerivation, initEnc, initDec, applyEnc, applyDec,
        finalEnc, finalDec, advance, endOfWalk, complete] <;>
      (repeat' split) <;> simp_all <;> (subst_vars; simp)

end Sys2Proof.Machine
end

