-- ==== Sys2Proof/Laws/Step.lean ====
section
/-! SUPPORT. One inversion lemma each for a step without an acceptance, for the acceptance of a word, and for a whole step. -/

namespace Sys2Proof.Machine

theorem tick_of_quiet {s : State} (h : s.ph.busy = false) : tick s = .next (noResponse s) := by
  unfold tick
  cases hp : s.ph <;> simp_all [Phase.busy]

theorem tick_of_busy {s : State} (h : s.ph.busy = true) : tick s = microStep params s := by
  unfold tick
  cases hp : s.ph <;> simp_all [Phase.busy]

/-- Everything a step without an acceptance can be. -/
theorem tick_cases {s t : State} (h : tick s = .next t) :
    (s.ph.busy = false ∧ t = noResponse s) ∨ (s.ph.busy = true ∧ microStep params s = .next t) := by
  cases hb : s.ph.busy
  · rw [tick_of_quiet hb] at h
    cases h
    exact .inl ⟨rfl, rfl⟩
  · rw [tick_of_busy hb] at h
    exact .inr ⟨rfl, h⟩

/-- A step without an acceptance neither reads nor writes the host's list. -/
theorem tick_withHost (s : State) (l : List HostAction) :
    tick { s with host := l } = mapNext (fun t => { t with host := l }) (tick s) := by
  cases hb : s.ph.busy
  · rw [tick_of_quiet hb, tick_of_quiet (by simpa using hb)]
    rfl
  · rw [tick_of_busy hb, tick_of_busy (by simpa using hb), microStep_withHost]

/-- A host that holds, seen from a core that is not in IDLE, leaves it alone. -/
theorem step_of_held {s : State} (h : hostHolds s = true) (hi : s.ph ≠ .idle) : step s = tick s := by
  unfold step
  split <;> simp_all [hostHolds]

/-- Everything the acceptance of a word can be. -/
theorem acceptWord_cases {w : CmdWord} {s t : State} (h : acceptWord w s = .next t) :
    (∃ i, decode w = .command i ∧ exec i s = .next t) ∨
      (∃ r, decode w = .reserved r ∧ t = raiseFault .illegalCmd s) := by
  unfold acceptWord at h
  split at h
  · exact .inl ⟨_, by assumption, h⟩
  · cases h
    exact .inr ⟨_, by assumption, rfl⟩

/-- Everything a step can be: a reset, an acceptance, or the core going on by itself. -/
theorem step_cases {s t : State} (h : step s = .next t) :
    (∃ rest, s.host = .reset :: rest ∧ t = applyReset { s with host := rest }) ∨
    (∃ w d rest, s.host = .command w d :: rest ∧ s.ph = .idle ∧
      acceptWord w { s with host := rest, wdata := d } = .next t) ∨
    (∃ rest, s.host = .wait :: rest ∧ tick { s with host := rest } = .next t) ∨
    (hostHolds s = true ∧ (s.host ≠ [] → s.ph ≠ .idle) ∧ tick s = .next t) := by
  unfold step at h
  split at h
  · rename_i hh
    exact .inr (.inr (.inr ⟨by simp [hostHolds, hh], by simp [hh], h⟩))
  · rename_i rest hh
    exact .inr (.inr (.inl ⟨rest, hh, h⟩))
  · rename_i rest hh
    cases h
    exact .inl ⟨rest, hh, rfl⟩
  · rename_i w d rest hh
    split at h
    · rename_i hp
      exact .inr (.inl ⟨w, d, rest, hh, hp, h⟩)
    · rename_i hp
      exact .inr (.inr (.inr ⟨by simp [hostHolds, hh], fun _ => hp, h⟩))

end Sys2Proof.Machine
end

