-- ==== Sys2Proof/Tests/Slice0.lean ====
section
/-! SUPPORT. Tests of single commands and micro-steps against the spec's encodings and vectors (30_encoding.md, 95_test_vectors.md), and for every statement with hypotheses a concrete state and operands that meet them. -/

namespace Sys2Proof.Tests

open Sys2Proof Sys2Proof.Machine
open Sys2Proof.Config (Params)

/-! Small states. -/

/-- An idle core with KS and BLK loaded. -/
def loaded (k : Nat) (b : Nat) : State :=
  { State.reset with ks := KeyState.hex k, blk := Block.hex b, kv := true, bv := true }

/-- A command in flight: opcode, phase, RND, STOP, DST over a loaded core. -/
def flying (op : BitVec 4) (ph : Phase) (rnd stop : BitVec 4) (dst : Slot) (k b : Nat) : State :=
  { loaded k b with op := op, ph := ph, rnd := rnd, stop := stop, dst := dst }

/-- A halted core. -/
def halted : State := { loaded 0 0 with ph := .halt, fault := true, fcode := 3 }

/-- The core with this word presented. -/
def presenting (w : CmdWord) (d : Bus) (s : State) : State := { s with host := [.command w d] }

/-- The outcome is a next state with this property. -/
def nextHas (o : Host.Outcome State Fault Refusal) (p : State → Bool) : Bool :=
  match o with
  | .next t => p t
  | .fault _ => false
  | .refused _ => false

/-- The payload that a step answers, as bytes. -/
def answer (t : State) : Option (List Byte) :=
  match t.rsp with
  | some (.done p) => some p.bytes
  | some (.faulted _) => none
  | none => none

/-- A next state whose response is this payload. -/
def answers (o : Host.Outcome State Fault Refusal) (bs : List Byte) : Bool :=
  nextHas o fun t => answer t == some bs

/-- A next state with this STATUS that is halted and gave no payload. -/
def halts (o : Host.Outcome State Fault Refusal) (status : BitVec 8) : Bool :=
  nextHas o fun t => t.status == status && decide (t.ph = .halt) && !t.rspValid

/-- A next state with this KS. -/
def leavesKey (o : Host.Outcome State Fault Refusal) (k : Nat) : Bool :=
  nextHas o fun t => t.ks == KeyState.hex k

/-- A next state with this BLK. -/
def leavesBlock (o : Host.Outcome State Fault Refusal) (b : Nat) : Bool :=
  nextHas o fun t => t.blk == Block.hex b

/-! Well-formedness: each check has a term it refuses (R72). -/

theorem test_wf_rcb_round : (Instr.rcb 16 0).wellFormed = false := by decide
theorem test_wf_rcb_index : (Instr.rcb 0 8).wellFormed = false := by decide
theorem test_wf_stepf_round : (Instr.stepf .one 16).wellFormed = false := by decide
theorem test_wf_stepb_round : (Instr.stepb .zero 16).wellFormed = false := by decide
theorem test_wf_largest :
    (Instr.rcb 15 7).wellFormed = true ∧ (Instr.stepf .one 15).wellFormed = true ∧
      (Instr.stepb .one 15).wellFormed = true := by decide

/-! Decoding: words written out from R71, R72, R74 (95_test_vectors.md 2.1). -/

theorem test_decode_ldk : decode 0b0001_000000000000 = .command .ldk := by decide
theorem test_decode_ldb : decode 0b0010_000000000000 = .command .ldb := by decide
theorem test_decode_rdk : decode 0b0011_000000000000 = .command .rdk := by decide
theorem test_decode_rdb : decode 0b0100_000000000000 = .command .rdb := by decide
theorem test_decode_sub : decode 0b0101_0000_01000111 = .command (.sub 0x47) := by decide
theorem test_decode_subblk : decode 0b0110_000000000000 = .command .subblk := by decide
theorem test_decode_rcb : decode 0b0111_00000_0010_011 = .command (.rcb 2 3) := by decide
theorem test_decode_rcb_range : decode 0x7048 = .command (.rcb 9 0) ∧ decode 0x707F = .command (.rcb 15 7) := by
  decide
theorem test_decode_stepf : decode 0b1000_0000000_1_0011 = .command (.stepf .one 3) := by decide
theorem test_decode_stepb : decode 0b1001_0000000_0_1000 = .command (.stepb .zero 8) := by decide
theorem test_decode_esk : decode 0b1010_000000000000 = .command .esk := by decide
theorem test_decode_dsk : decode 0b1011_000000000000 = .command .dsk := by decide
theorem test_decode_dske : decode 0b1100_000000000000 = .command .dske := by decide
theorem test_decode_enc : decode 0b1101_000000000000 = .command .enc := by decide
theorem test_decode_dec : decode 0b1110_000000000000 = .command .dec := by decide
theorem test_decode_reserved :
    [(0x0000 : CmdWord), 0x0FFF, 0xF000, 0xFFFF, 0x5100, 0x6001, 0x7080, 0x8020, 0x9020, 0xA001, 0xE800].all
      (fun w =>
        match decode w with
        | .reserved _ => true
        | .command _ => false) = true := by decide

theorem test_table_word : decodeTableWord 16 0x8013 = some (.stepf .one 3) ∧ decodeTableWord 16 0x8020 = none := by
  decide

/-- The examples of R78, text and word. -/
theorem test_text :
    commandText (.sub 0x47) .empty = "SUB 0x47".toList ∧ encode (.sub 0x47) = 0x5047 ∧
    commandText (.rcb 2 3) .empty = "RCB 2, 3".toList ∧ encode (.rcb 2 3) = 0x7013 ∧
    commandText (.stepf .one 3) .empty = "STEPF 1, 3".toList ∧ encode (.stepf .one 3) = 0x8013 ∧
    commandText .ldb (.block (Block.hex 0x0011223344556677)) = "LDB 0011223344556677".toList := by
  decide +kernel

/-! Data movement (95_test_vectors.md 2.6). -/

theorem test_ldk :
    nextHas (exec .ldk { State.reset with wdata := 0x000102030405060708090A0B0C0D0E0F }) (fun t =>
      t.ks == KeyState.hex 0x000102030405060708090A0B0C0D0E0F && t.ks.slot1.b0 == 0x08 &&
        t.status == 0x01 && answer t == some []) = true := by decide +kernel
theorem test_ldb :
    nextHas (exec .ldb { State.reset with wdata := 0x0011223344556677DEADBEEFDEADBEEF }) (fun t =>
      t.blk.b0 == 0x00 && t.blk.b1 == 0x11 && t.blk.b7 == 0x77 && t.status == 0x02) = true := by
  decide +kernel
theorem test_rdk :
    answers (exec .rdk (loaded 0x000102030405060708090A0B0C0D0E0F 0))
      [0, 1, 2, 3, 4, 5, 6, 7, 8, 9, 10, 11, 12, 13, 14, 15] = true := by decide +kernel
theorem test_rdk_reset : halts (exec .rdk State.reset) 0xB0 = true := by decide
theorem test_rdb :
    nextHas (exec .rdb (loaded 0 0x0011223344556677)) (fun t =>
      t.rdata == some 0x00112233445566770000000000000000 && t.status == 0x03) = true := by decide +kernel
theorem test_rdb_key_only : halts (exec .rdb { State.reset with kv := true }) 0xC1 = true := by decide

/-! Substitution (95_test_vectors.md 2.2). -/

theorem test_sub :
    answers (exec (.sub 0x47) State.reset) [0x8E] = true ∧ answers (exec (.sub 0xA5) State.reset) [0x28] = true := by
  decide +kernel
theorem test_sub_pair :
    answers (exec (.sub 0xBA) State.reset) [0x00] = true ∧ answers (exec (.sub 0x5A) State.reset) [0x3D] = true := by
  decide +kernel
theorem test_subblk : leavesBlock (exec .subblk (loaded 0 0x0011223344556677)) 0xBAD59114E8647BD6 = true := by
  decide +kernel
theorem test_subblk_reset : halts (exec .subblk State.reset) 0xC0 = true := by decide
theorem test_rcb :
    answers (exec (.rcb 2 3) State.reset) [0xD1] = true ∧ answers (exec (.rcb 8 7) State.reset) [0x8E] = true ∧
      answers (exec (.rcb 1 0) State.reset) [0x50] = true := by decide +kernel
theorem test_rcb_range : halts (exec (.rcb 9 0) (loaded 0 0)) 0xA3 = true := by decide

/-- Passes of 0x47 (95_test_vectors.md 2.2): pass 0, wire, pass 1, wire, pass 2. -/
theorem test_passes :
    passPQ tRef (0x4, 0x7) = (0x5, 0xC) ∧ wireRef 0x5 0xC = (0x7, 0x4) ∧ passQP tRef (0x7, 0x4) = (0xC, 0x5) ∧
      wireRef 0xC 0x5 = (0xD, 0x1) ∧ passPQ tRef (0xD, 0x1) = (0x8, 0xE) := by decide
theorem test_wire :
    wireRef 0x3 0x9 = (0x2, 0xD) ∧ wireRef 0xF 0x0 = (0xC, 0xC) ∧ wireRef 0x0 0xF = (0x3, 0x3) ∧
      wireRef 0xA 0x5 = (0x9, 0x9) := by decide

/-! Collaborators (95_test_vectors.md 2.3). -/

theorem test_gmul : gmul 0x02 0x80 = 0x1D ∧ gmul 0x03 0xFF = 0x1C ∧ gmul 0x0B 0x53 = 0x57 := by decide
theorem test_diffuse :
    diffuseRef (Block.hex 0x0102030405060708) = Block.hex 0x386F66252C133A19 ∧
      diffuseRef (Block.hex 0x0000000000000001) = Block.hex 0x070B080605040301 := by decide +kernel
theorem test_F :
    F reference (Block.hex 0x80EE95CEE96968F7) 1 = Block.hex 0xEE7435B617E917CF ∧
      F reference (Block.hex 0x0001020304050607) 3 = Block.hex 0xF76200CE8F0AE594 := by decide +kernel
theorem test_rt :
    rtRef (Block.hex 0x80EE95CEE96968F7) (Block.hex 0xEE7435B617E917CF) 2 = Block.hex 0x50AC8DBF70529A4C ∧
      irtRef (Block.hex 0x50AC8DBF70529A4C) (Block.hex 0xEE7435B617E917CF) 2 = Block.hex 0x80EE95CEE96968F7 := by
  decide +kernel

/-! Stepping (95_test_vectors.md 2.4, V1 and V3). -/

theorem test_stepf :
    leavesKey (exec (.stepf .one 0) (loaded 0x80000000000000000000000000000000 0))
      0x8000000000000000402E88937453922A = true := by decide +kernel
theorem test_stepf_range : halts (exec (.stepf .zero 9) State.reset) 0xA0 = true := by decide
theorem test_stepb :
    leavesKey (exec (.stepb .zero 8) (loaded 0x7BED79E87EA09BD9A6BECA65273FF4EC 0))
      0x09C5DDD0359D9C3CA6BECA65273FF4EC = true := by decide +kernel
theorem test_stepb_range : halts (exec (.stepb .zero 10) { State.reset with kv := true }) 0xA1 = true := by decide

/-! Sequenced commands: acceptance and micro-steps (95_test_vectors.md 2.5, 2.7; 42_start_keys.md R146). -/

theorem test_esk :
    nextHas (step (presenting 0xA000 0 (loaded 0 0))) (fun t =>
      t.op == 0xA && decide (t.ph = .init) && t.host.isEmpty && t.status == 0x07) = true := by decide
theorem test_esk_advance :
    nextHas (step (flying 0xA .advance 1 1 .one 0x80EE95CEE96968F70000000000000000 0)) (fun t =>
      t.ks == KeyState.hex 0x80EE95CEE96968F7EE7435B617E917CF && decide (t.ph = .idle) && t.rnd == 1 &&
        decide (t.dst = .zero) && answer t == some []) = true := by decide +kernel
theorem test_dsk :
    nextHas (step (presenting 0xB000 0 (loaded 0 0))) (fun t => t.op == 0xB && decide (t.ph = .init)) = true := by
  decide
theorem test_dsk_advance :
    nextHas (step (flying 0xB .advance 8 8 .zero 0x09C5DDD0359D9C3CA6BECA65273FF4EC 0)) (fun t =>
      t.ks == KeyState.hex 0x7BED79E87EA09BD9A6BECA65273FF4EC && decide (t.ph = .idle) &&
        decide (t.dst = .one)) = true := by decide +kernel
theorem test_dske_init :
    nextHas (step (flying 0xC .init 0 0 .one 0 0)) (fun t =>
      t.rnd == 2 && t.stop == 8 && decide (t.dst = .zero) && decide (t.ph = .advance)) = true := by decide
theorem test_dske_reset : halts (step (presenting 0xC000 0 State.reset)) 0xB0 = true := by decide
theorem test_enc_order :
    halts (step (presenting 0xD000 0 State.reset)) 0xB0 = true ∧
      halts (step (presenting 0xD000 0 { State.reset with kv := true })) 0xC1 = true ∧
      halts (step (presenting 0xD000 0 { State.reset with bv := true })) 0xB2 = true := by decide
theorem test_enc_final :
    nextHas (step (flying 0xD .final 8 8 .one 0x7BED79E87EA09BD9A6BECA65273FF4EC 0x1DA01E3606602BA3)) (fun t =>
      t.blk == Block.hex 0x49A4CE32AC190E3F && decide (t.ph = .idle) && answer t == some []) = true := by
  decide +kernel
theorem test_dec_init :
    nextHas (step (flying 0xE .init 0 0 .one 0x7BED79E87EA09BD9A6BECA65273FF4EC 0x49A4CE32AC190E3F)) (fun t =>
      t.blk == Block.hex 0x1DA01E3606602BA3 && t.rnd == 8 && t.stop == 2 && decide (t.ph = .apply)) = true := by
  decide +kernel
theorem test_dec_apply :
    nextHas (step (flying 0xE .apply 8 2 .zero 0x7BED79E87EA09BD9A6BECA65273FF4EC 0x1DA01E3606602BA3)) (fun t =>
      t.blk == Block.hex 0x06FF5910EEF3C27D && decide (t.ph = .advance)) = true := by decide +kernel

/-! Faults, halting, reset (95_test_vectors.md 2.7, 2.8). -/

theorem test_illegal : halts (step (presenting 0x0000 0 State.reset)) 0x90 = true ∧
    halts (step (presenting 0xFFFF 0 State.reset)) 0x90 = true := by decide
theorem test_halted_holds :
    nextHas (step (presenting 0x3000 0 halted)) (fun t => t == { halted with host := t.host, rsp := none } &&
      t.host.length == 1) = true := by decide
theorem test_reset_in_flight :
    nextHas (step { flying 0xD .advance 5 8 .one 0 0 with host := [.reset] }) (fun t =>
      t.status == 0x00 && decide (t.ph = .idle) && t.rnd == 0 && !t.rspValid) = true := by decide
theorem test_fetch_word :
    nextHas (step (State.reset.withFetchWord 16 0x5047)) (fun t => answer t == some [0x8E]) = true := by
  decide +kernel

/-! The refused reading of the middle pass (R106): without the swap of the boxes the construction does not give SREF. -/

/-- The construction with P and Q in the same places in all three passes. -/
def sNoSwap (b : Byte) : Byte :=
  let p0 := passPQ tRef (b.extractLsb' 4 4, b.extractLsb' 0 4)
  let w0 := wireRef p0.1 p0.2
  let p1 := passPQ tRef w0
  let w1 := wireRef p1.1 p1.2
  let p2 := passPQ tRef w1
  p2.1 ++ p2.2

theorem test_swap_matters : sNoSwap 0 = 0x2D ∧ sNoSwap 1 = 0x3E ∧ sNoSwap 2 = 0x28 ∧ sNoSwap 3 = 0x7B := by decide


/-! Witnesses: for every statement with hypotheses, a concrete state and operands that meet them together, one per clause. -/

theorem witness_WorkedEncodings : State.reset.ph = .idle := by decide

theorem witness_DecodeOfEncode :
    (Instr.rcb 15 7).wellFormed = true ∧ (Instr.stepb .one 15).wellFormed = true ∧
      (Instr.sub 0xFF).wellFormed = true := by decide

theorem witness_EncodeOfDecode : decode 0x901F = .command (.stepb .one 15) := by decide

theorem witness_RowsMatchDecoding :
    Instr.row (.rcb 0 0) ∈ opcodeMap ∧ (0x707F : CmdWord) &&& (Instr.row (.rcb 0 0)).mask = 0x7000 ∧
      decode 0x707F = .command (.rcb 15 7) := by decide

theorem witness_ReservedWords :
    (decode 0x5100 = .reserved (.mustBeZero 5) ∧ ∀ row ∈ opcodeMap, (0x5100 : CmdWord) &&& row.mask ≠ row.pattern) ∧
    ((presenting 0x5100 7 State.reset).host = .command 0x5100 7 :: [] ∧ (presenting 0x5100 7 State.reset).ph = .idle) ∧
    (72 ≤ 127 ∧ 127 ≤ 127) ∧ (9 ≤ 9 ∧ 15 ≤ 15) ∧ State.reset.ph = .idle ∧ 8 < 9 := by decide

theorem witness_StepRunsPresentedCommand :
    (presenting 0xD000 0 (loaded 1 2)).host = .command 0xD000 0 :: [] ∧
      (presenting 0xD000 0 (loaded 1 2)).ph = .idle ∧ decode 0xD000 = .command .enc := by decide

theorem witness_StepWithoutAcceptance :
    (hostHolds (flying 0xA .init 0 0 .zero 1 2) = true ∧ (flying 0xA .init 0 0 .zero 1 2).ph.busy = true) ∧
    (State.reset.host = [] ∧ State.reset.ph.busy = false) ∧
    (({ halted with host := [.wait] } : State).host = .wait :: [] ∧ halted.ph.busy = false) ∧
    (({ flying 0xD .final 8 8 .one 1 2 with host := [.wait] } : State).host = .wait :: [] ∧
      (flying 0xD .final 8 8 .one 1 2).ph.busy = true) := by decide

theorem witness_NoAcceptanceOutsideIdle : halted.ph ≠ .idle ∧ (flying 0xA .init 0 0 .zero 1 2).ph ≠ .idle := by decide

theorem witness_HeldCommandHasNoEffect :
    (presenting 0x3000 0 (flying 0xA .init 0 0 .zero 1 2)).host = .command 0x3000 0 :: [] ∧
    (presenting 0x3000 0 (flying 0xA .init 0 0 .zero 1 2)).ph ≠ .idle ∧
    ∃ t, step (presenting 0x3000 0 (flying 0xA .init 0 0 .zero 1 2)) = .next t :=
  ⟨by decide, by decide, ⟨_, rfl⟩⟩

/-- A reserved word, a round operand above 8, KV = 0, BV = 0 and a command with every check passed, and the micro-step clause. -/
theorem witness_CheckOrder :
    ((presenting 0x0000 0 State.reset).host = .command 0x0000 0 :: [] ∧ decode 0x0000 = .reserved (.opcode 0)) ∧
    (decode 0x8009 = .command (.stepf .zero 9) ∧ Instr.roundOperand (.stepf .zero 9) = some 9) ∧
    (decode 0x8008 = .command (.stepf .zero 8) ∧ (∀ r, Instr.roundOperand (.stepf .zero 8) = some r → r ≤ 8) ∧
      Instr.readsKS (.stepf .zero 8) = true ∧ State.reset.kv = false) ∧
    (decode 0xD000 = .command .enc ∧ (∀ r, Instr.roundOperand .enc = some r → r ≤ 8) ∧ (Instr.readsKS .enc = true → ({ State.reset with kv := true } : State).kv = true) ∧
      Instr.readsBLK .enc = true ∧ ({ State.reset with kv := true } : State).bv = false) ∧
    ((Instr.readsKS .enc = true → (loaded 1 2).kv = true) ∧ (Instr.readsBLK .enc = true → (loaded 1 2).bv = true)) ∧
    ((flying 0xD .final 8 8 .one 1 2).ph.busy = true ∧ noReset (flying 0xD .final 8 8 .one 1 2) = true ∧
      ∃ t, step (flying 0xD .final 8 8 .one 1 2) = .next t) :=
  ⟨⟨rfl, by decide⟩, ⟨by decide, rfl⟩, ⟨by decide, by simp [Instr.roundOperand], rfl, rfl⟩,
    ⟨by decide, by simp [Instr.roundOperand], fun _ => rfl, rfl, rfl⟩, ⟨fun _ => rfl, fun _ => rfl⟩, rfl, rfl, _, rfl⟩

theorem witness_FaultEntry :
    (presenting 0x0000 0 State.reset).ph ≠ .halt ∧
      ∃ t, step (presenting 0x0000 0 State.reset) = .next t ∧ t.ph = .halt :=
  ⟨by decide, _, rfl, rfl⟩

theorem witness_HaltedUntilReset :
    halted.ph = .halt ∧ halted.fault = true ∧ hostHolds halted = true ∧
      ({ halted with host := [.wait] } : State).host = .wait :: [] ∧
      ({ halted with host := [.reset] } : State).host = .reset :: [] := by decide

theorem witness_ResetInAnyPhase :
    ({ flying 0xD .advance 5 8 .one 1 2 with host := [.reset] } : State).host = .reset :: [] := by decide

theorem witness_OnlyResetClears :
    (noReset halted = true ∧ halted.ph = .halt ∧ ∃ t, step halted = .next t) ∧
    (noReset (loaded 1 2) = true ∧ (loaded 1 2).kv = true ∧ (loaded 1 2).bv = true ∧ ∃ t, step (loaded 1 2) = .next t) :=
  ⟨⟨by decide, by decide, _, rfl⟩, by decide, by decide, by decide, _, rfl⟩

theorem witness_LdkLoadsKeyState :
    ({ State.reset with wdata := 0x000102030405060708090A0B0C0D0E0F } : State).ph = .idle ∧
      ({ State.reset with wdata := 0x000102030405060708090A0B0C0D0E0F } : State).wdata =
        0x000102030405060708090A0B0C0D0E0F := by decide

theorem witness_LdbLoadsBlock :
    ({ State.reset with wdata := 0x0011223344556677#64 ++ 5#64 } : State).ph = .idle ∧
      ({ State.reset with wdata := 0x0011223344556677#64 ++ 5#64 } : State).wdata = 0x0011223344556677#64 ++ 5#64 := by
  decide

theorem witness_RdkReadsKeyState :
    (State.reset.ph = .idle ∧ State.reset.kv = false) ∧
    ((loaded 0x80EE95CEE96968F7EE7435B617E917CF 0).ph = .idle ∧
      (loaded 0x80EE95CEE96968F7EE7435B617E917CF 0).kv = true ∧
      (loaded 0x80EE95CEE96968F7EE7435B617E917CF 0).ks = KeyState.hex 0x80EE95CEE96968F7EE7435B617E917CF) ∧
    ∃ t u : State, exec .rdk (loaded 1 0) = .next t ∧ u.ph = .idle ∧ t.rdata = some u.wdata :=
  ⟨by decide, by decide, _, { State.reset with wdata := 1 }, rfl, rfl, by decide +kernel⟩

theorem witness_RdbReadsBlock :
    (State.reset.ph = .idle ∧ State.reset.bv = false) ∧
    ((loaded 0 0x49A4CE32AC190E3F).ph = .idle ∧ (loaded 0 0x49A4CE32AC190E3F).bv = true ∧
      (loaded 0 0x49A4CE32AC190E3F).blk = Block.hex 0x49A4CE32AC190E3F) := by decide

theorem witness_PayloadLanes : 0 < 16 ∧ 15 < 16 := by decide

theorem witness_SubAnswersSubstitute : State.reset.ph = .idle := by decide

theorem witness_SubblkSubstitutesBlock :
    (State.reset.ph = .idle ∧ State.reset.bv = false) ∧ ((loaded 0 1).ph = .idle ∧ (loaded 0 1).bv = true) := by
  decide

theorem witness_RcbAnswersRoundConstant :
    (15 < 16 ∧ 7 < 8) ∧ (State.reset.ph = .idle ∧ 8 < 9) ∧ (8 ≤ 8 ∧ 7 < 8) := by decide

theorem witness_XstepIsInvolution : 0 ≤ 8 ∧ 8 ≤ 8 := by decide

theorem witness_StepfStepsForward :
    15 < 16 ∧ (State.reset.ph = .idle ∧ 8 < 9 ∧ 8 ≤ 8 ∧ State.reset.kv = false) ∧
      ((loaded 1 0).ph = .idle ∧ (loaded 1 0).kv = true) := by decide

theorem witness_StepbStepsBackward :
    15 < 16 ∧ (State.reset.ph = .idle ∧ 8 < 9 ∧ 8 ≤ 8 ∧ State.reset.kv = false) ∧
      ((loaded 1 0).ph = .idle ∧ (loaded 1 0).kv = true ∧ ∃ t, exec (.stepf .one 8) (loaded 1 0) = .next t) :=
  ⟨by decide, by decide, by decide, by decide, _, rfl⟩

theorem witness_FirstSteps :
    ∃ A' C' : Block, A' = (Block.hex 1).xor (F reference (Block.hex 2) 0) ∧
      C' = (Block.hex 2).xor (F reference A' 1) := ⟨_, _, rfl, rfl⟩

theorem witness_SlotParity : 0 ≤ 8 ∧ 8 ≤ 8 := by decide

theorem witness_CalcIsRepeatedStep :
    (loaded 1 0).ph = .idle ∧ (loaded 1 0).kv = true ∧ 2 ≤ 8 ∧ 8 ≤ 8 ∧ 8 ≤ 8 := by decide

/-- The three clauses: a state in which KS keeps its contents, an XSTEP, an LDK. -/
theorem witness_KeyStateWriters :
    (noReset State.reset = true ∧ ∃ t, step State.reset = .next t) ∧
    (noReset (presenting 0x8018 0 (loaded 1 0)) = true ∧ ∃ t, step (presenting 0x8018 0 (loaded 1 0)) = .next t) ∧
    (noReset (presenting 0x1000 9 (loaded 1 0)) = true ∧ ∃ t, step (presenting 0x1000 9 (loaded 1 0)) = .next t) :=
  ⟨⟨rfl, _, rfl⟩, ⟨rfl, _, rfl⟩, rfl, _, rfl⟩

theorem witness_DerivationsStart :
    ((loaded 1 0).ph = .idle ∧ (loaded 1 0).kv = true) ∧ (State.reset.ph = .idle ∧ State.reset.kv = false) := by
  decide

theorem witness_DriversStart :
    ((loaded 1 2).ph = .idle ∧ (loaded 1 2).kv = true ∧ (loaded 1 2).bv = true) ∧
    (State.reset.ph = .idle ∧ State.reset.kv = false) ∧
    (({ State.reset with kv := true } : State).ph = .idle ∧ ({ State.reset with kv := true } : State).kv = true ∧
      ({ State.reset with kv := true } : State).bv = false) := by decide

theorem witness_DerivationInit :
    [(0xA : BitVec 4), 0xB, 0xC].all (fun op =>
      decide ((flying op .init 0 0 .zero 1 2).ph = .init) && hostHolds (flying op .init 0 0 .zero 1 2) &&
        (flying op .init 0 0 .zero 1 2).op == op) = true := by decide

/-- The last ADVANCE of ENC and of DSK, one that is not the last of ENC and of DEC, and the states of the invariant at both ends of RND. -/
theorem witness_AdvanceMicroStep :
    ((flying 0xD .advance 8 8 .zero 1 2).ph = .advance ∧ hostHolds (flying 0xD .advance 8 8 .zero 1 2) = true ∧
      (flying 0xD .advance 8 8 .zero 1 2).op = SeqCommand.enc.opcode ∧
      (flying 0xD .advance 8 8 .zero 1 2).rnd.toNat ≤ 8 ∧
      (flying 0xD .advance 8 8 .zero 1 2).rnd = (flying 0xD .advance 8 8 .zero 1 2).stop) ∧
    ((flying 0xB .advance 8 8 .zero 1 2).op = SeqCommand.dsk.opcode ∧ SeqCommand.dsk ≠ .enc ∧ SeqCommand.dsk ≠ .dec) ∧
    ((flying 0xE .advance 3 2 .one 1 2).op = SeqCommand.dec.opcode ∧
      (flying 0xE .advance 3 2 .one 1 2).rnd ≠ (flying 0xE .advance 3 2 .one 1 2).stop) ∧
    ((flying 0xB .advance 0 8 .zero 1 2).inv = true ∧ (flying 0xE .advance 2 2 .zero 1 2).inv = true ∧
      (flying 0xD .advance 8 8 .zero 1 2).inv = true) := by decide

theorem witness_EncMicroSteps :
    (hostHolds (flying 0xD .init 0 0 .zero 1 2) = true ∧ (flying 0xD .init 0 0 .zero 1 2).op = 0xD ∧
      (flying 0xD .init 0 0 .zero 1 2).ph = .init) ∧
    ((flying 0xD .apply 8 8 .zero 1 2).ph = .apply ∧ (flying 0xD .apply 8 8 .zero 1 2).rnd.toNat ≤ 8) ∧
    ((flying 0xD .final 8 8 .one 1 2).ph = .final ∧ (flying 0xD .final 8 8 .one 1 2).inv = true) := by decide

theorem witness_DecMicroSteps :
    (hostHolds (flying 0xE .init 0 0 .zero 1 2) = true ∧ (flying 0xE .init 0 0 .zero 1 2).op = 0xE ∧
      (flying 0xE .init 0 0 .zero 1 2).ph = .init) ∧
    ((flying 0xE .apply 8 2 .zero 1 2).ph = .apply ∧ (flying 0xE .apply 8 2 .zero 1 2).rnd.toNat ≤ 8) ∧
    ((flying 0xE .final 2 2 .one 1 2).ph = .final ∧ (flying 0xE .final 2 2 .one 1 2).inv = true) := by decide

theorem witness_DerivationsAsFunctions :
    [(0xA : BitVec 4), 0xB, 0xC].all (fun op =>
      decide ((flying op .init 0 0 .zero 1 2).ph = .init) && hostHolds (flying op .init 0 0 .zero 1 2) &&
        (flying op .init 0 0 .zero 1 2).op == op) = true ∧ 2 < 3 ∧ 9 < 10 ∧ 7 < 8 := by decide

theorem witness_EncAsFunction :
    ((flying 0xD .init 0 0 .zero 1 2).ph = .init ∧ hostHolds (flying 0xD .init 0 0 .zero 1 2) = true ∧
      (flying 0xD .init 0 0 .zero 1 2).op = 0xD ∧ 15 < 16) ∧
    (∃ k, k = KeyState.mk (scheduleBlock reference (KeyState.hex 1) 0) (scheduleBlock reference (KeyState.hex 1) 1)) ∧
    2 ≤ 2 ∧ 8 ≤ 8 := ⟨by decide, ⟨_, rfl⟩, by decide⟩

theorem witness_DecAsFunction :
    ((flying 0xE .init 0 0 .zero 1 2).ph = .init ∧ hostHolds (flying 0xE .init 0 0 .zero 1 2) = true ∧
      (flying 0xE .init 0 0 .zero 1 2).op = 0xE ∧ 15 < 16) ∧
    (∃ k, k = KeyState.mk (scheduleBlock reference (KeyState.hex 1) 8) (scheduleBlock reference (KeyState.hex 1) 7)) ∧
    2 ≤ 2 ∧ 8 ≤ 8 := ⟨by decide, ⟨_, rfl⟩, by decide⟩

theorem witness_ForwardConsistency : (loaded 1 0).ph = .idle ∧ (loaded 1 0).kv = true := by decide

/-- RT_INV and S_INVOL together: parameters with the constant-free substitution of a table that is the identity. -/
theorem witness_RoundTrip :
    ∃ P : Params, RtInv P ∧ SInvol P := by
  refine ⟨{ reference with
    T := fun n => n ++ n, wire := fun h l => (h, l), rt := fun X K _ => X.xor K, irt := fun X K _ => X.xor K }, ?_, ?_⟩
  · intro X K r _ _
    simp [Block.xor]
  · unfold SInvol
    decide +kernel

theorem witness_MachineRoundTrip : State.reset.ph = .idle := by decide

theorem witness_InvariantMeaning :
    halted.inv = true ∧ halted.fault = true ∧ State.reset.inv = true ∧ State.reset.fault = false ∧
      (flying 0xD .apply 8 8 .zero 1 2).inv = true ∧ (flying 0xE .final 2 2 .one 1 2).inv = true := by decide

theorem witness_InvariantKept :
    (flying 0xE .advance 2 2 .zero 1 2).inv = true ∧ ∃ t, step (flying 0xE .advance 2 2 .zero 1 2) = .next t :=
  ⟨by decide, _, rfl⟩

theorem witness_NeverStuck : (flying 0xB .advance 0 8 .zero 1 2).inv = true := by decide

theorem witness_InFlightCompletes :
    (flying 0xD .init 0 0 .one 1 2).inv = true ∧ (flying 0xD .init 0 0 .one 1 2).ph.busy = true ∧
      hostHolds (flying 0xD .init 0 0 .one 1 2) = true := by decide

/-- Idle, halted and INIT states with different left-over sequencer values. -/
theorem witness_SequencerUnobservable :
    sameButSequencer (loaded 1 2) { loaded 1 2 with op := 0xB, rnd := 8, stop := 8, dst := .one } ∧
    (loaded 1 2).inv = true ∧
    ({ loaded 1 2 with op := 0xB, rnd := 8, stop := 8, dst := .one } : State).inv = true ∧
    sameButSequencer (flying 0xA .init 0 0 .zero 1 2) (flying 0xA .init 8 8 .one 1 2) ∧
    (flying 0xA .init 0 0 .zero 1 2).inv = true ∧ (flying 0xA .init 8 8 .one 1 2).inv = true := by
  refine ⟨⟨rfl, ?_, ?_⟩, by decide, by decide, ⟨rfl, ?_, ?_⟩, by decide, by decide⟩
  all_goals simp [loaded, flying, State.reset, Phase.busy]

/-- Two reset states with different contents of KS and BLK. -/
theorem witness_UnloadedUnobservable :
    State.reset.inv = true ∧
      sameButUnloaded State.reset { State.reset with ks := KeyState.hex 5, blk := Block.hex 7 } := by
  refine ⟨by decide, rfl, ?_, ?_⟩ <;> simp [State.reset]

/-- Two cores in a micro-step with different data, and two hosts that present LDK with different keys, one of them zero. -/
theorem witness_ControlIndependentOfData :
    (sameControl (flying 0xD .apply 2 8 .zero 1 2) (flying 0xD .apply 2 8 .zero 3 4) ∧
      ∃ s', step (flying 0xD .apply 2 8 .zero 1 2) = .next s') ∧
    (sameControl (presenting 0x1000 0 (loaded 1 2)) (presenting 0x1000 7 (loaded 3 4)) ∧
      ∃ s', step (presenting 0x1000 0 (loaded 1 2)) = .next s') :=
  ⟨⟨⟨rfl, rfl⟩, _, rfl⟩, ⟨rfl, rfl⟩, _, rfl⟩

end Sys2Proof.Tests
end

section
/-! PROOFS. The invariant of the core, phase by phase, and that every step keeps it (10_state.md). -/

namespace Sys2Proof.Machine

open Sys2Proof.Config (Params)

theorem Phase.busy_iff {p : Phase} :
    p.busy = true ↔ p = .init ∨ p = .apply ∨ p = .advance ∨ p = .final := by
  cases p <;> decide

/-! The parts of the invariant, read one phase at a time. -/

theorem inv_iff {s : State} :
    s.inv = true ↔ faultOk s = true ∧ rangesOk s = true ∧ sequencerOk s = true := by
  simp [State.inv, and_assoc]

theorem rangesOk_iff {s : State} :
    rangesOk s = true ↔
      s.rnd.toNat ≤ 8 ∧ s.stop.toNat ≤ 8 ∧ (s.op = 0 ∨ (seqCommandOf s.op).isSome = true) := by
  simp [rangesOk, and_assoc]

theorem faultOk_of_ph_ne_halt {s : State} (h : s.ph ≠ .halt) :
    faultOk s = true ↔ s.fault = false ∧ s.fcode = 0 := by
  cases hf : s.fault <;> simp [faultOk, h, hf]

theorem faultOk_of_ph_halt {s : State} (h : s.ph = .halt) :
    faultOk s = true ↔ s.fault = true ∧ 1 ≤ s.fcode.toNat ∧ s.fcode.toNat ≤ 4 := by
  cases hf : s.fault <;> simp [faultOk, h, hf]

theorem loadedFor_iff {c : SeqCommand} {s : State} :
    loadedFor c s = true ↔ s.kv = true ∧ (c.isDriver = true → s.bv = true) := by
  cases hc : c.isDriver <;> simp [loadedFor, hc]

theorem walkOk_iff {c : SeqCommand} {s : State} :
    walkOk c s = true ↔
      c.least ≤ s.rnd.toNat ∧ s.rnd.toNat ≤ c.greatest ∧ s.stop.toNat = c.stop ∧
        s.dst = Slot.ofParity s.rnd.toNat := by
  simp [walkOk, and_assoc]

theorem isDriver_iff {c : SeqCommand} : c.isDriver = true ↔ c = .enc ∨ c = .dec := by
  cases c <;> decide

theorem sequencerOk_of_quiet {s : State} (h : s.ph.busy = false) : sequencerOk s = true := by
  cases hp : s.ph <;> simp_all [sequencerOk, Phase.busy]

theorem sequencerOk_init {c : SeqCommand} {s : State} (hp : s.ph = .init) (hop : s.op = c.opcode) :
    sequencerOk s = true ↔ loadedFor c s = true := by
  simp [sequencerOk, hp, hop]

theorem sequencerOk_apply {c : SeqCommand} {s : State} (hp : s.ph = .apply) (hop : s.op = c.opcode) :
    sequencerOk s = true ↔ c.isDriver = true ∧ loadedFor c s = true ∧ walkOk c s = true := by
  simp [sequencerOk, hp, hop, and_assoc]

theorem sequencerOk_advance {c : SeqCommand} {s : State} (hp : s.ph = .advance)
    (hop : s.op = c.opcode) :
    sequencerOk s = true ↔ loadedFor c s = true ∧ walkOk c s = true := by
  simp [sequencerOk, hp, hop]

theorem sequencerOk_final {c : SeqCommand} {s : State} (hp : s.ph = .final) (hop : s.op = c.opcode) :
    sequencerOk s = true ↔
      c.isDriver = true ∧ loadedFor c s = true ∧ s.rnd.toNat = c.stop ∧ s.stop.toNat = c.stop ∧
        s.dst = .one := by
  simp [sequencerOk, hp, hop, and_assoc]

/-- While a command is in flight, OP names it and the registers it relies on are loaded (R26). -/
theorem exists_command_of_busy {s : State} (h : sequencerOk s = true) (hb : s.ph.busy = true) :
    ∃ c : SeqCommand, s.op = c.opcode ∧ loadedFor c s = true := by
  rcases Phase.busy_iff.mp hb with hp | hp | hp | hp
  all_goals
    simp only [sequencerOk, hp, Option.any_eq_true, Bool.and_eq_true] at h
    obtain ⟨c, hc, h⟩ := h
    exact ⟨c, opcode_of_seqCommandOf hc, by tauto⟩

/-- A walk under way stays within the ranges of RND, STOP and OP. -/
theorem rangesOk_of_walkOk {c : SeqCommand} {s : State} (hop : s.op = c.opcode)
    (h : walkOk c s = true) : rangesOk s = true := by
  obtain ⟨-, hmax, hstop, -⟩ := walkOk_iff.mp h
  have : c.greatest ≤ 8 ∧ c.stop ≤ 8 := by cases c <;> decide
  exact rangesOk_iff.mpr ⟨by omega, by omega, .inr (by simp [hop])⟩

/-! The micro-steps and the invariant. -/

/-- A step out of an unhalted phase into an unhalted phase keeps FAULT and FCODE at 0. -/
theorem faultOk_of_frame {s t : State} (h : faultOk s = true) (hs : s.ph ≠ .halt) (ht : t.ph ≠ .halt)
    (hf : t.fault = s.fault) (hc : t.fcode = s.fcode) : faultOk t = true := by
  rw [faultOk_of_ph_ne_halt ht, hf, hc]
  exact (faultOk_of_ph_ne_halt hs).mp h

/-- RND moves by one within 0..8, without a wrap (R130). -/
theorem walkOk_advance {P : Params} {c : SeqCommand} {s : State} (h : walkOk c s = true)
    (hne : s.rnd ≠ s.stop) : walkOk c (advance P c s) = true := by
  obtain ⟨hmin, hmax, hstop, hdst⟩ := walkOk_iff.mp h
  have hne' : s.rnd.toNat ≠ s.stop.toNat := fun he => hne (BitVec.eq_of_toNat_eq he)
  rw [advance_more P c s hne, walkOk_iff]
  by_cases hc : c = .dec
  · subst hc
    simp only [SeqCommand.least, SeqCommand.greatest, SeqCommand.stop] at *
    have hr : s.rnd.toNat = (s.rnd - 1).toNat + 1 := by bv_omega
    refine ⟨?_, ?_, hstop, ?_⟩
    · simp only [nextRound]; omega
    · simp only [nextRound]; omega
    · simp only [nextRound, hdst]
      rw [hr, Slot.ofParity_succ, Slot.other_other]
  · have hn : nextRound c s.rnd = s.rnd + 1 := by cases c <;> simp_all [nextRound]
    have hg : c.greatest = c.stop := by cases c <;> simp_all [SeqCommand.greatest, SeqCommand.stop]
    have h8 : c.greatest ≤ 8 := by cases c <;> decide
    have hr : (s.rnd + 1).toNat = s.rnd.toNat + 1 := by bv_omega
    simp only [hn, hr, hdst, Slot.ofParity_succ, and_true]
    omega

theorem microStep_init {P : Params} {c : SeqCommand} {s : State} (hp : s.ph = .init)
    (hop : s.op = c.opcode) : microStep P s = .next (microInit P c s) := by
  simp [microStep, hp, hop]

theorem microStep_advance {P : Params} {c : SeqCommand} {s : State} (hp : s.ph = .advance)
    (hop : s.op = c.opcode) (hr : s.rnd.toNat ≤ 8) : microStep P s = .next (advance P c s) := by
  simp [microStep, hp, hop, roundOutOfRange_eq_false.mpr hr]

/-- With a command in flight the invariant leaves a micro-step to take (log entry 13). -/
theorem microStep_of_inv {P : Params} {s : State} (h : s.inv = true) (hb : s.ph.busy = true) :
    ∃ t, microStep P s = .next t := by
  obtain ⟨-, hr, hs⟩ := inv_iff.mp h
  obtain ⟨hr, -, -⟩ := rangesOk_iff.mp hr
  obtain ⟨c, hop, -⟩ := exists_command_of_busy hs hb
  rcases Phase.busy_iff.mp hb with hp | hp | hp | hp
  · exact ⟨_, microStep_init hp hop⟩
  · obtain ⟨hd, -, -⟩ := (sequencerOk_apply hp hop).mp hs
    rcases isDriver_iff.mp hd with rfl | rfl <;>
      simp [microStep, hp, hop, roundOutOfRange_eq_false.mpr hr]
  · exact ⟨_, microStep_advance hp hop hr⟩
  · obtain ⟨hd, -⟩ := (sequencerOk_final hp hop).mp hs
    rcases isDriver_iff.mp hd with rfl | rfl <;> simp [microStep, hp, hop]

/-- A walk under way, seen before its APPLY or before its ADVANCE. -/
theorem walking_keeps {c : SeqCommand} {s : State} (hop : s.op = c.opcode)
    (hl : loadedFor c s = true) (hw : walkOk c s = true)
    (hp : s.ph = .advance ∨ (s.ph = .apply ∧ c.isDriver = true)) :
    rangesOk s = true ∧ sequencerOk s = true := by
  refine ⟨rangesOk_of_walkOk hop hw, ?_⟩
  rcases hp with hp | ⟨hp, hd⟩
  · exact (sequencerOk_advance hp hop).mpr ⟨hl, hw⟩
  · exact (sequencerOk_apply hp hop).mpr ⟨hd, hl, hw⟩

theorem microInit_walkOk (P : Params) (c : SeqCommand) (s : State) :
    walkOk c (microInit P c s) = true := by
  cases c <;> simp [microInit, walkOk_iff] <;> decide

theorem microInit_ph (P : Params) (c : SeqCommand) (s : State) :
    (microInit P c s).ph = .advance ∨ ((microInit P c s).ph = .apply ∧ c.isDriver = true) := by
  cases c <;> simp [microInit, SeqCommand.isDriver]

theorem advance_more_ph (P : Params) (c : SeqCommand) (s : State) (h : s.rnd ≠ s.stop) :
    (advance P c s).ph = .advance ∨ ((advance P c s).ph = .apply ∧ c.isDriver = true) := by
  rw [advance_more P c s h]
  cases c <;> simp [phaseAfterAdvance, SeqCommand.isDriver]

/-- ADVANCE at RND = STOP: a derivation is over, a driver goes to FINAL with DST = 1 (R130). -/
theorem advance_last_keeps {P : Params} {c : SeqCommand} {s : State} (hop : s.op = c.opcode)
    (hl : loadedFor c s = true) (hw : walkOk c s = true) (he : s.rnd = s.stop) :
    rangesOk (advance P c s) = true ∧ sequencerOk (advance P c s) = true := by
  have hr := rangesOk_of_walkOk hop hw
  obtain ⟨-, -, hstop, hdst⟩ := walkOk_iff.mp hw
  by_cases hc : c = .enc ∨ c = .dec
  · have hd : s.dst.other = .one := by
      rw [hdst, he, hstop]
      rcases hc with rfl | rfl <;> rfl
    rw [advance_last_driver P c s he hc]
    exact ⟨hr, (sequencerOk_final (by rfl) (by exact hop)).mpr
      ⟨isDriver_iff.mpr hc, hl, by rw [← hstop, ← he], hstop, hd⟩⟩
  · push Not at hc
    rw [advance_last_derivation P c s he hc.1 hc.2]
    exact ⟨hr, rfl⟩

/-- Every micro-step keeps the ranges and the sequencer's part of the invariant. -/
theorem microStep_keeps {P : Params} {s t : State} (hr : rangesOk s = true)
    (hs : sequencerOk s = true) (h : microStep P s = .next t) :
    rangesOk t = true ∧ sequencerOk t = true := by
  obtain ⟨hkv, hbv, -, -, hopt, -⟩ := microStep_frame h
  have loaded {c : SeqCommand} (hl : loadedFor c s = true) : loadedFor c t = true := by
    simpa [loadedFor, hkv, hbv] using hl
  rcases microStep_cases h with ⟨c, hp, hop, rfl⟩ | ⟨hp, hop, -, rfl⟩ | ⟨hp, hop, -, rfl⟩ |
    ⟨c, hp, hop, -, rfl⟩ | ⟨-, -, rfl⟩ | ⟨-, -, rfl⟩
  · exact walking_keeps (hopt.trans hop) (loaded ((sequencerOk_init hp hop).mp hs))
      (microInit_walkOk P c s) (microInit_ph P c s)
  · obtain ⟨-, hl, hw⟩ := (sequencerOk_apply hp hop).mp hs
    exact walking_keeps hop (loaded hl) hw (.inl rfl)
  · obtain ⟨-, hl, hw⟩ := (sequencerOk_apply hp hop).mp hs
    exact walking_keeps hop (loaded hl) hw (.inl rfl)
  · obtain ⟨hl, hw⟩ := (sequencerOk_advance hp hop).mp hs
    by_cases he : s.rnd = s.stop
    · exact advance_last_keeps hop hl hw he
    · exact walking_keeps (hopt.trans hop) (loaded hl) (walkOk_advance hw he)
        (advance_more_ph P c s he)
  · exact ⟨hr, rfl⟩
  · exact ⟨hr, rfl⟩

theorem inv_microStep {P : Params} {s t : State} (hi : s.inv = true) (hb : s.ph.busy = true)
    (h : microStep P s = .next t) : t.inv = true := by
  obtain ⟨hf, hr, hs⟩ := inv_iff.mp hi
  obtain ⟨-, -, hfault, hfcode, -⟩ := microStep_frame h
  have hp : s.ph ≠ .halt := by rintro hp; simp [hp, Phase.busy] at hb
  exact inv_iff.mpr ⟨faultOk_of_frame hf hp (microStep_ph h) hfault hfcode, microStep_keeps hr hs h⟩

theorem inv_tick {s t : State} (hi : s.inv = true) (h : tick s = .next t) : t.inv = true := by
  rcases tick_cases h with ⟨-, rfl⟩ | ⟨hb, h⟩
  · exact hi
  · exact inv_microStep hi hb h

/-! Acceptance, reset, and the invariant. -/

theorem inv_applyReset (s : State) : (applyReset s).inv = true := rfl

/-- A fault leaves a code of R211 in FCODE and the core halted (R221). -/
theorem inv_raiseFault {s : State} (cause : FaultCause) (h : s.inv = true) :
    (raiseFault cause s).inv = true := by
  obtain ⟨-, hr, -⟩ := inv_iff.mp h
  have hcode : 1 ≤ cause.code.toNat ∧ cause.code.toNat ≤ 4 := by cases cause <;> decide
  exact inv_iff.mpr ⟨(faultOk_of_ph_halt rfl).mpr ⟨rfl, hcode⟩, hr, rfl⟩

/-- What a command does to the sequencer: nothing, or it starts a sequenced command whose operands it has checked. -/
theorem effectOf_sequencer (i : Instr) (s : State) :
    ((effectOf i s).ph = s.ph ∧ (effectOf i s).op = s.op) ∨
      ∃ c : SeqCommand, effectOf i s = startSequence c.opcode s ∧ i.readsKS = true ∧
        i.readsBLK = c.isDriver := by
  cases i with
  | esk => exact .inr ⟨.esk, rfl, rfl, rfl⟩
  | dsk => exact .inr ⟨.dsk, rfl, rfl, rfl⟩
  | dske => exact .inr ⟨.dske, rfl, rfl, rfl⟩
  | enc => exact .inr ⟨.enc, rfl, rfl, rfl⟩
  | dec => exact .inr ⟨.dec, rfl, rfl, rfl⟩
  | _ => exact .inl ⟨rfl, rfl⟩

theorem inv_effectOf {i : Instr} {s : State} (hi : s.inv = true) (hp : s.ph = .idle)
    (hc : firstFault (checksOf i) s = none) : (effectOf i s).inv = true := by
  obtain ⟨hf, hr, -⟩ := inv_iff.mp hi
  obtain ⟨hfault, hfcode, hrnd, hstop, -⟩ := effectOf_frame i s
  obtain ⟨-, hkv, hbv⟩ := firstFault_none.mp hc
  rcases effectOf_sequencer i s with ⟨hph, hop⟩ | ⟨c, he, hks, hblk⟩
  · refine inv_iff.mpr ⟨faultOk_of_frame hf ?_ ?_ hfault hfcode, ?_, sequencerOk_of_quiet ?_⟩
    · simp [hp]
    · simp [hph, hp]
    · simpa [rangesOk, hrnd, hstop, hop] using hr
    · simp [hph, hp, Phase.busy]
  · rw [he]
    obtain ⟨h1, h2, -⟩ := rangesOk_iff.mp hr
    have hl : loadedFor c (startSequence c.opcode s) = true :=
      loadedFor_iff.mpr ⟨hkv hks, fun hd => hbv (hblk.trans hd)⟩
    exact inv_iff.mpr ⟨faultOk_of_frame hf (by simp [hp]) (by simp) rfl rfl,
      rangesOk_iff.mpr ⟨h1, h2, .inr (by simp)⟩, (sequencerOk_init rfl rfl).mpr hl⟩

theorem inv_exec {i : Instr} {s t : State} (hi : s.inv = true) (h : exec i s = .next t) :
    t.inv = true := by
  obtain ⟨hp, ⟨cause, -, rfl⟩ | ⟨hc, rfl⟩⟩ := exec_cases h
  · exact inv_raiseFault cause hi
  · exact inv_effectOf hi hp hc

theorem inv_acceptWord {w : CmdWord} {s t : State} (hi : s.inv = true)
    (h : acceptWord w s = .next t) : t.inv = true := by
  rcases acceptWord_cases h with ⟨i, -, h⟩ | ⟨-, -, rfl⟩
  · exact inv_exec hi h
  · exact inv_raiseFault .illegalCmd hi

/-- Settles O50, one lemma per kind of step. -/
theorem invariantKept : Obligations.InvariantKept := by
  intro s t hi h
  rcases step_cases h with ⟨rest, -, rfl⟩ | ⟨w, d, rest, -, -, h⟩ | ⟨rest, -, h⟩ | ⟨-, -, h⟩
  · exact inv_applyReset _
  · exact inv_acceptWord (s := { s with host := rest, wdata := d }) hi h
  · exact inv_tick (s := { s with host := rest }) hi h
  · exact inv_tick hi h

end Sys2Proof.Machine
end

section
/-! PROOFS. The STATUS port, the reset values, what the invariant says, and what can change KS (10_state.md). -/

namespace Sys2Proof.Machine

open Sys2Proof.Config (Params)

/-- Settles O15. -/
theorem resetStateValues : Obligations.ResetStateValues := by
  unfold Obligations.ResetStateValues
  decide

/-- Settles O16, over the values of the five fields that STATUS concatenates. -/
theorem statusPort : Obligations.StatusPort := by
  intro s
  rw [← Phase.busy_iff]
  unfold State.status State.busy
  generalize s.fault = fault, s.fcode = fcode, s.ph.busy = busy, s.bv = bv, s.kv = kv
  revert fault fcode busy bv kv
  decide

/-! What the invariant says. -/

/-- Settles O48. -/
theorem invariantAtReset : Obligations.InvariantAtReset := rfl

theorem faultOk_iff {s : State} :
    faultOk s = true ↔
      (s.fault = true ↔ s.ph = .halt) ∧ (s.fault = false → s.fcode = 0) ∧
        (s.fault = true → 1 ≤ s.fcode.toNat ∧ s.fcode.toNat ≤ 4) := by
  by_cases hp : s.ph = .halt
  · rw [faultOk_of_ph_halt hp]
    cases hf : s.fault <;> simp [hp]
  · rw [faultOk_of_ph_ne_halt hp]
    cases hf : s.fault <;> simp [hp]

theorem opcode_mem (c : SeqCommand) : c.opcode ∈ [0xA, 0xB, 0xC, 0xD, 0xE] := by
  cases c <;> decide

/-- In APPLY and FINAL the command is a driver, with both registers loaded. -/
theorem driver_of_apply_or_final {s : State} (hs : sequencerOk s = true)
    (hp : s.ph = .apply ∨ s.ph = .final) :
    ∃ c : SeqCommand, s.op = c.opcode ∧ c.isDriver = true ∧ s.kv = true ∧ s.bv = true := by
  obtain ⟨c, hop, hl⟩ := exists_command_of_busy hs (Phase.busy_iff.mpr (by tauto))
  have hd : c.isDriver = true := by
    rcases hp with hp | hp
    · exact ((sequencerOk_apply hp hop).mp hs).1
    · exact ((sequencerOk_final hp hop).mp hs).1
  obtain ⟨hkv, hbv⟩ := loadedFor_iff.mp hl
  exact ⟨c, hop, hd, hkv, hbv hd⟩

/-- In APPLY and ADVANCE a walk is under way. -/
theorem walkOk_of_apply_or_advance {s : State} (hs : sequencerOk s = true)
    (hp : s.ph = .apply ∨ s.ph = .advance) : ∃ c : SeqCommand, s.op = c.opcode ∧ walkOk c s = true := by
  obtain ⟨c, hop, -⟩ := exists_command_of_busy hs (Phase.busy_iff.mpr (by tauto))
  rcases hp with hp | hp
  · obtain ⟨-, -, hw⟩ := (sequencerOk_apply hp hop).mp hs
    exact ⟨c, hop, hw⟩
  · obtain ⟨-, hw⟩ := (sequencerOk_advance hp hop).mp hs
    exact ⟨c, hop, hw⟩

/-- Settles O49, from the parts of the invariant. -/
theorem invariantMeaning : Obligations.InvariantMeaning := by
  intro s hi
  obtain ⟨hf, hr, hs⟩ := inv_iff.mp hi
  obtain ⟨hfault, hclear, hcode⟩ := faultOk_iff.mp hf
  obtain ⟨hrnd, hstop, -⟩ := rangesOk_iff.mp hr
  refine ⟨hfault, hclear, hcode, hrnd, hstop, fun hb => ?_, fun hp => ?_, fun hp => ?_⟩
  · obtain ⟨c, hop, hl⟩ := exists_command_of_busy hs hb
    exact ⟨hop ▸ opcode_mem c, (loadedFor_iff.mp hl).1⟩
  · obtain ⟨c, hop, hd, -, hbv⟩ := driver_of_apply_or_final hs hp
    rw [hop]
    exact ⟨by rcases isDriver_iff.mp hd with rfl | rfl <;> decide, hbv⟩
  · obtain ⟨c, -, hw⟩ := walkOk_of_apply_or_advance hs hp
    obtain ⟨-, -, -, hdst⟩ := walkOk_iff.mp hw
    exact hdst

/-! What a command and a micro-step do to KS. -/

theorem decodeZ_eq_command {w : CmdWord} {i j : Instr} :
    decodeZ w i = .command j ↔ operandField w = 0 ∧ j = i := by
  unfold decodeZ
  split <;> simp_all [eq_comm]

/-- A command word is its opcode field and its operand field (R70). -/
theorem opcodeField_append_operandField (w : CmdWord) :
    (opcodeField w ++ operandField w : BitVec 16) = w := by
  unfold opcodeField operandField
  rw [BitVec.extractLsb'_append_extractLsb'_eq_extractLsb' (by rfl)]
  exact BitVec.extractLsb'_eq_self

/-- 0x1000 is the only word of LDK (R74). -/
theorem word_of_decode_ldk {w : CmdWord} (h : decode w = .command .ldk) : w = 0x1000 := by
  unfold decode at h
  split at h
  case h_1 hop =>
    rw [← opcodeField_append_operandField w, (decodeZ_eq_command.mp h).1,
      BitVec.eq_of_toNat_eq (y := 1) hop]
    decide
  case h_5 => unfold decodeI8 at h; split at h <;> cases h
  case h_7 => unfold decodeN7 at h; split at h <;> cases h
  case h_8 => unfold decodeST at h; split at h <;> cases h
  case h_9 => unfold decodeST at h; split at h <;> cases h
  case h_15 => cases h
  all_goals cases (decodeZ_eq_command.mp h).2

theorem xstep_get_other (P : Params) (sl : Slot) (r : Nat) (k : KeyState) :
    (xstep P sl r k).get sl.other = k.get sl.other := by
  simp [xstep]

/-- The three ways a command can leave KS. -/
theorem effectOf_ks (i : Instr) (s : State) :
    (effectOf i s).ks = s.ks ∨
      (∃ sl r, i.roundOperand = some r ∧ (effectOf i s).ks = xstep params sl r s.ks) ∨
      (i = .ldk ∧ (effectOf i s).ks = inKeyState s.wdata) := by
  cases i with
  | ldk => exact .inr (.inr ⟨rfl, rfl⟩)
  | stepf sl r => exact .inr (.inl ⟨sl, r, rfl, rfl⟩)
  | stepb sl r => exact .inr (.inl ⟨sl, r, rfl, rfl⟩)
  | _ => exact .inl rfl

theorem microInit_ks (P : Params) (c : SeqCommand) (s : State) : (microInit P c s).ks = s.ks := by
  cases c <;> rfl

theorem advance_ks (P : Params) (c : SeqCommand) (s : State) :
    (advance P c s).ks = xstep P s.dst s.rnd.toNat s.ks := by
  by_cases he : s.rnd = s.stop
  · cases c <;> simp [advance, endOfWalk, he]
  · rw [advance_more P c s he]

/-- A micro-step leaves KS alone or is one XSTEP in range (R123, R130). -/
theorem microStep_ks {P : Params} {s t : State} (h : microStep P s = .next t) :
    t.ks = s.ks ∨ ∃ sl r, r ≤ 8 ∧ t.ks = xstep P sl r s.ks := by
  rcases microStep_cases h with ⟨c, -, -, rfl⟩ | ⟨-, -, -, rfl⟩ | ⟨-, -, -, rfl⟩ |
    ⟨c, -, -, hr, rfl⟩ | ⟨-, -, rfl⟩ | ⟨-, -, rfl⟩
  · exact .inl (microInit_ks P c s)
  · exact .inl rfl
  · exact .inl rfl
  · exact .inr ⟨_, _, hr, advance_ks P c s⟩
  · exact .inl rfl
  · exact .inl rfl

theorem tick_ks {s t : State} (h : tick s = .next t) :
    t.ks = s.ks ∨ ∃ sl r, r ≤ 8 ∧ t.ks = xstep params sl r s.ks := by
  rcases tick_cases h with ⟨-, rfl⟩ | ⟨-, h⟩
  · exact .inl rfl
  · exact microStep_ks h

theorem exec_ks {i : Instr} {s t : State} (h : exec i s = .next t) :
    t.ks = s.ks ∨ (∃ sl r, r ≤ 8 ∧ t.ks = xstep params sl r s.ks) ∨
      (i = .ldk ∧ t.ks = inKeyState s.wdata) := by
  obtain ⟨-, ⟨cause, -, rfl⟩ | ⟨hc, rfl⟩⟩ := exec_cases h
  · exact .inl rfl
  · obtain ⟨hround, -, -⟩ := firstFault_none.mp hc
    rcases effectOf_ks i s with hk | ⟨sl, r, hr, hk⟩ | hk
    · exact .inl hk
    · exact .inr (.inl ⟨sl, r, by simpa [checksOf, hr] using hround, hk⟩)
    · exact .inr (.inr hk)

theorem acceptWord_ks {w : CmdWord} {s t : State} (h : acceptWord w s = .next t) :
    t.ks = s.ks ∨ (∃ sl r, r ≤ 8 ∧ t.ks = xstep params sl r s.ks) ∨
      (w = 0x1000 ∧ t.ks = inKeyState s.wdata) := by
  rcases acceptWord_cases h with ⟨i, hd, h⟩ | ⟨-, -, rfl⟩
  · rcases exec_ks h with hk | hk | ⟨rfl, hk⟩
    · exact .inl hk
    · exact .inr (.inl hk)
    · exact .inr (.inr ⟨word_of_decode_ldk hd, hk⟩)
  · exact .inl rfl

/-- Settles O33, by what an acceptance and a micro-step can do to KS. -/
theorem keyStateWriters : Obligations.KeyStateWriters := by
  intro s t hn h
  have withFrame : (∃ sl r, r ≤ 8 ∧ t.ks = xstep params sl r s.ks) →
      ∃ (sl : Slot) (r : Nat), r ≤ 8 ∧ t.ks = xstep params sl r s.ks ∧
        t.ks.get sl.other = s.ks.get sl.other := by
    rintro ⟨sl, r, hr, hk⟩
    exact ⟨sl, r, hr, hk, by rw [hk, xstep_get_other]⟩
  rcases step_cases h with ⟨rest, hh, -⟩ | ⟨w, d, rest, hh, hp, h⟩ | ⟨rest, -, h⟩ | ⟨-, -, h⟩
  · simp [noReset, hh] at hn
  · rcases acceptWord_ks h with hk | hk | ⟨rfl, hk⟩
    · exact .inl hk
    · exact .inr (.inl (withFrame hk))
    · exact .inr (.inr ⟨d, rest, hh, hp, hk⟩)
  · exact (tick_ks h).imp_right fun hk => .inl (withFrame hk)
  · exact (tick_ks h).imp_right fun hk => .inl (withFrame hk)

end Sys2Proof.Machine
end

section
/-! PROOFS. Registers that no step makes observable: two steps taken side by side from states that differ only in them (10_state.md R24, R29, R35, R38). -/

namespace Sys2Proof.Machine

open Sys2Proof.Config (Params)

/-! Two steps side by side. -/

/-- Both outcomes are next states, and the two are related by `Q`. -/
def BothNext (Q : State → State → Prop) (a b : Outcome) : Prop :=
  ∃ s' t', a = .next s' ∧ b = .next t' ∧ Q s' t'

section
variable {Q : State → State → Prop} {s t : State}

theorem bothNext_next (h : Q s t) : BothNext Q (.next s) (.next t) := ⟨s, t, rfl, rfl, h⟩

theorem firstFault_congr {c : Checks} (hkv : t.kv = s.kv) (hbv : t.bv = s.bv) :
    firstFault c t = firstFault c s := by
  simp [firstFault, hkv, hbv]

/-- Two idle cores with the same valid bits take the same branch of the acceptance of a word. -/
theorem acceptWord_bothNext (hs : s.ph = .idle) (ht : t.ph = .idle) (hkv : t.kv = s.kv)
    (hbv : t.bv = s.bv) (hfault : ∀ cause, Q (raiseFault cause s) (raiseFault cause t))
    (heffect : ∀ i, firstFault (checksOf i) s = none → Q (effectOf i s) (effectOf i t))
    (w : CmdWord) : BothNext Q (acceptWord w s) (acceptWord w t) := by
  unfold acceptWord
  cases decode w with
  | reserved r => exact bothNext_next (hfault .illegalCmd)
  | command i =>
    have hff := firstFault_congr (c := checksOf i) hkv hbv
    simp only [exec_eq_accept]
    cases hc : firstFault (checksOf i) s with
    | none =>
      rw [accept_of_ready hs hc, accept_of_ready ht (hff.trans hc)]
      exact bothNext_next (heffect i hc)
    | some cause =>
      rw [accept_of_fault hs hc, accept_of_fault ht (hff.trans hc)]
      exact bothNext_next (hfault cause)

theorem tick_bothNext (hph : t.ph = s.ph)
    (hquiet : s.ph.busy = false → Q (noResponse s) (noResponse t))
    (hbusy : s.ph.busy = true → BothNext Q (microStep params s) (microStep params t)) :
    BothNext Q (tick s) (tick t) := by
  cases hb : s.ph.busy with
  | false =>
    rw [tick_of_quiet hb, tick_of_quiet (hph ▸ hb)]
    exact bothNext_next (hquiet hb)
  | true =>
    rw [tick_of_busy hb, tick_of_busy (hph ▸ hb)]
    exact hbusy hb

/-- Two cores in one phase with one host take the same branch of a step. -/
theorem step_bothNext (hhost : t.host = s.host) (hph : t.ph = s.ph)
    (hreset : ∀ l, Q (applyReset { s with host := l }) (applyReset { t with host := l }))
    (haccept : s.ph = .idle → ∀ w d l, BothNext Q (acceptWord w { s with host := l, wdata := d })
      (acceptWord w { t with host := l, wdata := d }))
    (htick : ∀ l, BothNext Q (tick { s with host := l }) (tick { t with host := l })) :
    BothNext Q (step s) (step t) := by
  have hsame : BothNext Q (tick s) (tick t) := by
    have h := htick s.host
    nth_rw 2 [← hhost] at h
    exact h
  unfold step
  rw [hhost]
  split
  · exact hsame
  · exact htick _
  · exact bothNext_next (hreset _)
  · rename_i w d rest _
    by_cases hp : s.ph = .idle
    · rw [if_pos hp, if_pos (hph.trans hp)]
      exact haccept hp w d rest
    · rw [if_neg hp, if_neg (hph ▸ hp)]
      exact hsame

end

/-! The left-over sequencer registers. -/

/-- What two steps from states that differ in left-over sequencer registers answer. -/
def SequencerHidden (s t : State) : Prop := sameButSequencer s t ∧ t.rsp = s.rsp

theorem status_of_sameButSequencer {s t : State} (h : sameButSequencer s t) : t.status = s.status := by
  rw [h.1]
  rfl

/-- In APPLY, ADVANCE and FINAL every register counts. -/
theorem eq_of_sameButSequencer {s t : State} (h : sameButSequencer s t) (hb : s.ph.busy = true)
    (hp : s.ph ≠ .init) : t = s := by
  obtain ⟨ht, hop, hwalk⟩ := h
  obtain ⟨hrnd, hstop, hdst⟩ := hwalk hb hp
  rw [ht, hop hb, hrnd, hstop, hdst]

theorem sameButSequencer_refl (s : State) : sameButSequencer s s :=
  ⟨rfl, fun _ => rfl, fun _ _ => ⟨rfl, rfl, rfl⟩⟩

/-- INIT overwrites RND, STOP and DST (R146, R156, R162). -/
theorem microInit_of_sameButSequencer {s t : State} (h : sameButSequencer s t)
    (hb : s.ph.busy = true) (P : Params) (c : SeqCommand) : microInit P c t = microInit P c s := by
  obtain ⟨ht, hop, -⟩ := h
  rw [ht, hop hb]
  cases c <;> rfl

theorem microStep_sequencerHidden {s t : State} (hi : s.inv = true) (h : sameButSequencer s t)
    (hb : s.ph.busy = true) : BothNext SequencerHidden (microStep params s) (microStep params t) := by
  suffices hsame : microStep params t = microStep params s by
    obtain ⟨s', hs'⟩ := microStep_of_inv (P := params) hi hb
    rw [hsame, hs']
    exact bothNext_next ⟨sameButSequencer_refl s', rfl⟩
  by_cases hp : s.ph = .init
  · obtain ⟨-, -, hs⟩ := inv_iff.mp hi
    obtain ⟨c, hop, -⟩ := exists_command_of_busy hs hb
    have hpt : t.ph = .init := by rw [h.1]; exact hp
    rw [microStep_init hp hop, microStep_init hpt ((h.2.1 hb).trans hop),
      microInit_of_sameButSequencer h hb]
  · rw [eq_of_sameButSequencer h hb hp]

/-- Outside a run the sequencer registers are free, whatever the rest of the state. -/
theorem sequencerHidden_of_quiet {s t : State}
    (h : t = { s with op := t.op, rnd := t.rnd, stop := t.stop, dst := t.dst })
    (hq : s.ph.busy = false) : SequencerHidden s t :=
  ⟨⟨h, by simp [hq], by simp [hq]⟩, by rw [h]⟩

/-- A command reads none of OP, RND, STOP and DST, and OP is overwritten when it starts a sequence. -/
theorem effectOf_sequencerHidden {s t : State} (h : sameButSequencer s t) (hp : s.ph = .idle)
    (i : Instr) : SequencerHidden (effectOf i s) (effectOf i t) := by
  obtain ⟨ht, -⟩ := h
  have hq : s.ph.busy = false := by simp [hp, Phase.busy]
  rw [ht]
  cases i with
  | esk | dsk | dske | enc | dec => exact ⟨⟨rfl, fun _ => rfl, fun _ hne => absurd rfl hne⟩, rfl⟩
  | _ => exact sequencerHidden_of_quiet rfl hq

theorem sameButSequencer_fields {s t : State} (h : sameButSequencer s t) :
    t.host = s.host ∧ t.ph = s.ph ∧ t.kv = s.kv ∧ t.bv = s.bv := by
  rw [h.1]
  exact ⟨rfl, rfl, rfl, rfl⟩

/-- Both cores are presented the same word and bus. -/
theorem sameButSequencer_presented {s t : State} (h : sameButSequencer s t) (l : List HostAction) (d : Bus) :
    sameButSequencer { s with host := l, wdata := d } { t with host := l, wdata := d } :=
  ⟨by rw [h.1], h.2⟩

theorem acceptWord_sequencerHidden {s t : State} (h : sameButSequencer s t) (hp : s.ph = .idle)
    (w : CmdWord) : BothNext SequencerHidden (acceptWord w s) (acceptWord w t) := by
  obtain ⟨-, hph, hkv, hbv⟩ := sameButSequencer_fields h
  refine acceptWord_bothNext hp (hph.trans hp) hkv hbv (fun cause => ?_)
    (fun i _ => effectOf_sequencerHidden h hp i) w
  exact sequencerHidden_of_quiet (by rw [h.1]; rfl) rfl

theorem tick_sequencerHidden {s t : State} (hi : s.inv = true) (h : sameButSequencer s t) :
    BothNext SequencerHidden (tick s) (tick t) := by
  obtain ⟨-, hph, -, -⟩ := sameButSequencer_fields h
  refine tick_bothNext hph (fun hq => ?_) (microStep_sequencerHidden hi h)
  exact sequencerHidden_of_quiet (by rw [h.1]; rfl) hq

theorem step_sequencerHidden {s t : State} (hi : s.inv = true) (h : sameButSequencer s t) :
    BothNext SequencerHidden (step s) (step t) := by
  obtain ⟨hhost, hph, -, -⟩ := sameButSequencer_fields h
  refine step_bothNext hhost hph (fun l => ?_) (fun hp w d l => ?_) (fun l => ?_)
  · exact sequencerHidden_of_quiet (by rw [h.1]; rfl) rfl
  · exact acceptWord_sequencerHidden (sameButSequencer_presented h l d) hp w
  · exact tick_sequencerHidden (s := { s with host := l }) hi ⟨by rw [h.1], h.2⟩

/-- Settles O53, a step taken side by side from the two states. -/
theorem sequencerUnobservable : Obligations.SequencerUnobservable := by
  intro s t hi _ h
  obtain ⟨s', t', hs, ht, hsame, hrsp⟩ := step_sequencerHidden hi h
  exact ⟨s', t', hs, ht, hsame, hrsp, status_of_sameButSequencer hsame⟩

/-! The contents of registers nothing has loaded. -/

/-- What two steps from states that differ in unloaded registers answer. -/
def UnloadedHidden (s t : State) : Prop := sameButUnloaded s t ∧ t.rsp = s.rsp

theorem status_of_sameButUnloaded {s t : State} (h : sameButUnloaded s t) : t.status = s.status := by
  rw [h.1]
  rfl

theorem sameButUnloaded_fields {s t : State} (h : sameButUnloaded s t) :
    t.host = s.host ∧ t.ph = s.ph ∧ t.kv = s.kv ∧ t.bv = s.bv := by
  rw [h.1]
  exact ⟨rfl, rfl, rfl, rfl⟩

/-- A command whose checks pass reads only what is loaded (R214, R215). -/
theorem effectOf_unloadedHidden {s t : State} (h : sameButUnloaded s t) {i : Instr}
    (hc : firstFault (checksOf i) s = none) : UnloadedHidden (effectOf i s) (effectOf i t) := by
  obtain ⟨ht, hks, hblk⟩ := h
  obtain ⟨-, hkv, hbv⟩ := firstFault_none.mp hc
  generalize t.ks = k, t.blk = b at ht hks hblk
  subst ht
  cases i with
  | ldk => exact ⟨⟨rfl, fun _ => rfl, hblk⟩, rfl⟩
  | ldb => exact ⟨⟨rfl, hks, fun _ => rfl⟩, rfl⟩
  | rdk | stepf | stepb =>
    obtain rfl := hks (hkv rfl)
    exact ⟨⟨rfl, fun _ => rfl, hblk⟩, rfl⟩
  | rdb | subblk =>
    obtain rfl := hblk (hbv rfl)
    exact ⟨⟨rfl, hks, fun _ => rfl⟩, rfl⟩
  | _ => exact ⟨⟨rfl, hks, hblk⟩, rfl⟩

theorem microInit_withBlk (P : Params) {c : SeqCommand} (hd : c.isDriver = false) (s : State)
    (b : Block) : microInit P c { s with blk := b } = { microInit P c s with blk := b } := by
  cases c with
  | enc | dec => cases hd
  | _ => rfl

theorem advance_withBlk (P : Params) (c : SeqCommand) (s : State) (b : Block) :
    advance P c { s with blk := b } = { advance P c s with blk := b } := by
  by_cases he : s.rnd = s.stop
  · cases c <;> simp [advance, endOfWalk, complete, he]
  · simp [advance, he]

/-- With BV = 0 only a derivation can be in flight, and it neither reads nor writes BLK. -/
theorem microStep_withBlk {P : Params} {s : State} (hi : s.inv = true) (hb : s.ph.busy = true)
    (hbv : s.bv = false) (b : Block) :
    ∃ s', microStep P s = .next s' ∧
      microStep P { s with blk := b } = .next { s' with blk := b } := by
  obtain ⟨-, hr, hs⟩ := inv_iff.mp hi
  obtain ⟨hrnd, -, -⟩ := rangesOk_iff.mp hr
  obtain ⟨c, hop, hl⟩ := exists_command_of_busy hs hb
  have not_driver_phase : ¬ (s.ph = .apply ∨ s.ph = .final) := by
    intro hp
    obtain ⟨-, -, -, -, hbv'⟩ := driver_of_apply_or_final hs hp
    simp [hbv] at hbv'
  have hd : c.isDriver = false := by
    obtain ⟨-, hbv'⟩ := loadedFor_iff.mp hl
    simpa [hbv] using hbv'
  rcases Phase.busy_iff.mp hb with hp | hp | hp | hp
  · refine ⟨_, microStep_init hp hop, ?_⟩
    rw [microStep_init (s := { s with blk := b }) hp hop, microInit_withBlk P hd]
  · exact absurd (.inl hp) not_driver_phase
  · refine ⟨_, microStep_advance hp hop hrnd, ?_⟩
    rw [microStep_advance (s := { s with blk := b }) hp hop hrnd, advance_withBlk]
  · exact absurd (.inr hp) not_driver_phase

theorem microStep_unloadedHidden {s t : State} (hi : s.inv = true) (h : sameButUnloaded s t)
    (hb : s.ph.busy = true) : BothNext UnloadedHidden (microStep params s) (microStep params t) := by
  obtain ⟨ht, hks, hblk⟩ := h
  obtain ⟨-, -, hs⟩ := inv_iff.mp hi
  obtain ⟨c, -, hl⟩ := exists_command_of_busy hs hb
  obtain ⟨hkv, -⟩ := loadedFor_iff.mp hl
  rw [hks hkv] at ht
  cases hbv : s.bv with
  | true =>
    rw [hblk hbv] at ht
    obtain ⟨s', hs'⟩ := microStep_of_inv (P := params) hi hb
    rw [ht, hs']
    exact bothNext_next ⟨⟨rfl, fun _ => rfl, fun _ => rfl⟩, rfl⟩
  | false =>
    obtain ⟨s', hs', ht'⟩ := microStep_withBlk (P := params) hi hb hbv t.blk
    obtain ⟨-, hbv', -⟩ := microStep_frame hs'
    rw [ht, hs', ht']
    exact bothNext_next ⟨⟨rfl, fun _ => rfl, by simp [hbv', hbv]⟩, rfl⟩

/-- Both cores are presented the same word and bus. -/
theorem sameButUnloaded_presented {s t : State} (h : sameButUnloaded s t) (l : List HostAction) (d : Bus) :
    sameButUnloaded { s with host := l, wdata := d } { t with host := l, wdata := d } :=
  ⟨by rw [h.1], h.2⟩

theorem acceptWord_unloadedHidden {s t : State} (h : sameButUnloaded s t) (hp : s.ph = .idle)
    (w : CmdWord) : BothNext UnloadedHidden (acceptWord w s) (acceptWord w t) := by
  obtain ⟨-, hph, hkv, hbv⟩ := sameButUnloaded_fields h
  refine acceptWord_bothNext hp (hph.trans hp) hkv hbv (fun cause => ?_)
    (fun i hc => effectOf_unloadedHidden h hc) w
  exact ⟨⟨by rw [h.1]; rfl, h.2⟩, rfl⟩

theorem tick_unloadedHidden {s t : State} (hi : s.inv = true) (h : sameButUnloaded s t) :
    BothNext UnloadedHidden (tick s) (tick t) := by
  obtain ⟨-, hph, -, -⟩ := sameButUnloaded_fields h
  refine tick_bothNext hph (fun _ => ?_) (microStep_unloadedHidden hi h)
  exact ⟨⟨by rw [h.1]; rfl, h.2⟩, rfl⟩

theorem step_unloadedHidden {s t : State} (hi : s.inv = true) (h : sameButUnloaded s t) :
    BothNext UnloadedHidden (step s) (step t) := by
  obtain ⟨hhost, hph, -, -⟩ := sameButUnloaded_fields h
  refine step_bothNext hhost hph (fun l => ?_) (fun hp w d l => ?_) (fun l => ?_)
  · exact ⟨⟨by rw [h.1]; rfl, by simp, by simp⟩, rfl⟩
  · exact acceptWord_unloadedHidden (sameButUnloaded_presented h l d) hp w
  · exact tick_unloadedHidden (s := { s with host := l }) hi ⟨by rw [h.1], h.2⟩

/-- Settles O54, a step taken side by side from the two states. -/
theorem unloadedUnobservable : Obligations.UnloadedUnobservable := by
  intro s t hi h
  obtain ⟨s', t', hs, ht, hsame, hrsp⟩ := step_unloadedHidden hi h
  exact ⟨s', t', hs, ht, hsame, hrsp, status_of_sameButUnloaded hsame⟩

end Sys2Proof.Machine
end

section
/-! PROOFS. The byte lanes of the bus (R54, R55): a payload put on the bus reads back lane by lane. -/

namespace Sys2Proof.Machine

@[simp] theorem Block.bytes_length (X : Block) : X.bytes.length = 8 := rfl

/-- A Block is made of its own bytes. -/
theorem Block.ofFn_eq_of_bytes {f : Nat → Byte} {X : Block} (h : ∀ i < 8, f i = X.bytes.getD i 0) :
    Block.ofFn f = X := by
  simp [Block.ofFn, h, Block.bytes]

/-- R54: a payload fits the sixteen lanes. -/
theorem Payload.bytes_length_le (p : Payload) : p.bytes.length ≤ 16 := by
  cases p <;> simp [Payload.bytes]

theorem lane_bus (p : Payload) {j : Nat} (hj : j < 16) : lane p.bus j = p.bytes.getD j 0 := by
  have hl : 0 + p.bytes.length ≤ 16 := by simpa using p.bytes_length_le
  simpa [Payload.bus] using lane_placeLanes p.bytes hl hj

/-- A payload that carries `X` after the bytes `pre` gives `X` back from the lanes after `pre`. -/
theorem lanesBlock_bus {p : Payload} {X : Block} {pre post : List Byte}
    (hp : p.bytes = pre ++ X.bytes ++ post) : lanesBlock p.bus pre.length = X := by
  have hlen : p.bytes.length = pre.length + 8 + post.length := by simp [hp, Nat.add_assoc]
  have hfit := p.bytes_length_le
  refine Block.ofFn_eq_of_bytes fun i hi => ?_
  rw [lane_bus p (by omega), hp, List.append_assoc, List.getD_append_right _ _ _ _ (by omega),
    Nat.add_sub_cancel_left, List.getD_append _ _ _ _ (by simpa using hi)]

theorem inBlock_bus (X : Block) : inBlock (Payload.block X).bus = X :=
  lanesBlock_bus (pre := []) (post := []) (by simp [Payload.bytes])

theorem inKeyState_bus (k : KeyState) : inKeyState (Payload.keyState k).bus = k := by
  have h0 : lanesBlock (Payload.keyState k).bus 0 = k.slot0 :=
    lanesBlock_bus (pre := []) (post := k.slot1.bytes) rfl
  have h1 : lanesBlock (Payload.keyState k).bus 8 = k.slot1 :=
    lanesBlock_bus (pre := k.slot0.bytes) (post := []) (by simp [Payload.bytes])
  rw [inKeyState, h0, h1]

/-- Settles O21, by the lane law of a payload on the bus. -/
theorem payloadLanes : Obligations.PayloadLanes :=
  ⟨fun p _ hj => lane_bus p hj, inKeyState_bus, inBlock_bus⟩

end Sys2Proof.Machine
end

section
/-! PROOFS. Encoding and decoding of command words (30_encoding.md R70 to R75, R77, R82). -/

namespace Sys2Proof

/-! The decoder and the encoder, read once for all rows. -/

/-- The opcode of a command (R74). -/
def Instr.opcode : Instr → BitVec 4
  | .ldk => 0x1
  | .ldb => 0x2
  | .rdk => 0x3
  | .rdb => 0x4
  | .sub _ => 0x5
  | .subblk => 0x6
  | .rcb _ _ => 0x7
  | .stepf _ _ => 0x8
  | .stepb _ _ => 0x9
  | .esk => 0xA
  | .dsk => 0xB
  | .dske => 0xC
  | .enc => 0xD
  | .dec => 0xE

/-- How many low bits of the word carry operands: format Z 0, I8 8, N7 7, ST 5 (R71). -/
def Instr.operandWidth : Instr → Nat
  | .sub _ => 8
  | .rcb _ _ => 7
  | .stepf _ _ | .stepb _ _ => 5
  | .ldk | .ldb | .rdk | .rdb | .subblk | .esk | .dsk | .dske | .enc | .dec => 0

/-- The must-be-zero bits of a word, in the format of the command's row (R71). -/
def Instr.zeroBits (i : Instr) (w : CmdWord) : BitVec (12 - i.operandWidth) :=
  w.extractLsb' i.operandWidth (12 - i.operandWidth)

/-- The command of `i`'s row with the operands that the word carries (R72). -/
def Instr.readOperands (i : Instr) (w : CmdWord) : Instr :=
  match i with
  | .sub _ => .sub (w.extractLsb' 0 8)
  | .rcb _ _ => .rcb (w.extractLsb' 3 4).toNat (w.extractLsb' 0 3).toNat
  | .stepf _ _ => .stepf (slotOfBit (w.getLsbD 4)) (w.extractLsb' 0 4).toNat
  | .stepb _ _ => .stepb (slotOfBit (w.getLsbD 4)) (w.extractLsb' 0 4).toNat
  | i => i

/-- A row's pattern is its opcode over an operand field of zeros (R74). -/
theorem row_pattern_toNat (i : Instr) : i.row.pattern.toNat = i.opcode.toNat <<< 12 := by
  cases i <;> rfl

/-- A command of every row, in the order of the opcode map (R74). -/
def rowCommands : List Instr :=
  [.ldk, .ldb, .rdk, .rdb, .sub 0, .subblk, .rcb 0 0, .stepf .zero 0, .stepb .zero 0, .esk, .dsk,
    .dske, .enc, .dec]

/-- Decoding of a word that has a row's opcode: the must-be-zero bits decide (R77). -/
theorem decode_of_opcode {w : CmdWord} {i : Instr} (h : opcodeField w = i.opcode) :
    decode w = if i.zeroBits w = 0 then .command (i.readOperands w)
      else .reserved (.mustBeZero (opcodeField w)) := by
  have hn : (opcodeField w).toNat = i.opcode.toNat := congrArg _ h
  unfold decode
  rw [hn]
  cases i <;> rfl

/-- Opcodes 0x0 and 0xF have no row (R75). -/
theorem decode_of_no_row {w : CmdWord} (h : opcodeField w = 0x0 ∨ opcodeField w = 0xF) :
    decode w = .reserved (.opcode (opcodeField w)) := by
  rcases h with h | h <;> simp [decode, h]

/-- Every other opcode has a row (R74). -/
theorem opcode_cases (o : BitVec 4) : o = 0x0 ∨ o = 0xF ∨ ∃ i : Instr, o = i.opcode := by
  have all : ∀ o : BitVec 4, o = 0x0 ∨ o = 0xF ∨ ∃ i ∈ rowCommands, o = i.opcode := by decide
  exact (all o).imp_right (Or.imp_right fun ⟨i, _, hi⟩ => ⟨i, hi⟩)

/-! The word of a command, as a number. -/

theorem operandWidth_le (i : Instr) : i.operandWidth ≤ 12 := by
  cases i <;> simp [Instr.operandWidth]

/-- The operands of a well-formed command fit the operand bits of its format (R72). -/
theorem operandBits_lt {i : Instr} (h : i.wellFormed = true) :
    i.operandBits < 2 ^ i.operandWidth := by
  cases i with
  | sub imm8 => exact imm8.isLt
  | rcb round index =>
    simp only [Instr.wellFormed, Bool.and_eq_true, decide_eq_true_eq] at h
    simp only [Instr.operandBits, Instr.operandWidth]
    omega
  | stepf s r | stepb s r =>
    simp only [Instr.wellFormed, decide_eq_true_eq] at h
    cases s <;> simp only [Instr.operandBits, Instr.operandWidth, bitOfSlot] <;> omega
  | _ => decide

theorem operandBits_lt_4096 {i : Instr} (h : i.wellFormed = true) : i.operandBits < 4096 :=
  (operandBits_lt h).trans_le (Nat.pow_le_pow_right (by decide) (operandWidth_le i))

/-- The word of a command: the opcode above, the operands below (R70). -/
theorem encode_toNat {i : Instr} (h : i.wellFormed = true) :
    (encode i).toNat = 4096 * i.opcode.toNat + i.operandBits := by
  have hlt := operandBits_lt_4096 h
  rw [encode, BitVec.toNat_or, row_pattern_toNat, BitVec.toNat_ofNat, Nat.mod_eq_of_lt (by omega),
    ← Nat.shiftLeft_add_eq_or_of_lt hlt, Nat.shiftLeft_eq, Nat.mul_comm]

theorem field_toNat (w : CmdWord) (k n : Nat) :
    (w.extractLsb' k n).toNat = w.toNat / 2 ^ k % 2 ^ n := by
  rw [BitVec.extractLsb'_toNat, Nat.shiftRight_eq_div_pow]

theorem opcodeField_toNat (w : CmdWord) : (opcodeField w).toNat = w.toNat / 4096 := by
  have := w.isLt
  rw [opcodeField, field_toNat]
  omega

theorem bitOfSlot_le (s : Slot) : bitOfSlot s ≤ 1 := by cases s <;> decide

theorem bitOfSlot_inj {s t : Slot} : bitOfSlot s = bitOfSlot t ↔ s = t := by
  cases s <;> cases t <;> decide

/-- The slot bit, as a number (R72). -/
theorem bitOfSlot_slotOfBit (w : CmdWord) : bitOfSlot (slotOfBit (w.getLsbD 4)) = w.toNat / 16 % 2 := by
  rw [← Nat.toNat_testBit w.toNat 4, BitVec.testBit_toNat]
  cases w.getLsbD 4 <;> rfl

/-! Decoding the word of a command. -/

theorem opcodeField_encode {i : Instr} (h : i.wellFormed = true) :
    opcodeField (encode i) = i.opcode := by
  have hlt := operandBits_lt_4096 h
  apply BitVec.eq_of_toNat_eq
  rw [opcodeField_toNat, encode_toNat h]
  omega

theorem zeroBits_encode {i : Instr} (h : i.wellFormed = true) : i.zeroBits (encode i) = 0 := by
  have hpow : 2 ^ i.operandWidth * 2 ^ (12 - i.operandWidth) = 4096 :=
    pow_mul_pow_sub 2 (operandWidth_le i)
  apply BitVec.eq_of_toNat_eq
  rw [Instr.zeroBits, field_toNat, encode_toNat h, ← hpow, Nat.mul_assoc, Nat.mul_add_div (by positivity),
    Nat.div_eq_of_lt (operandBits_lt h), Nat.add_zero, Nat.mul_mod_right]
  rfl

/-- Every operand is read from where it was put (R72). -/
theorem readOperands_encode {i : Instr} (h : i.wellFormed = true) :
    i.readOperands (encode i) = i := by
  have hw := encode_toNat h
  cases i with
  | sub imm8 =>
    have himm : (encode (.sub imm8)).extractLsb' 0 8 = imm8 := by
      apply BitVec.eq_of_toNat_eq
      simp only [field_toNat, hw, Instr.opcode, Instr.operandBits]
      omega
    rw [Instr.readOperands, himm]
  | rcb round index =>
    simp only [Instr.wellFormed, Bool.and_eq_true, decide_eq_true_eq] at h
    simp only [Instr.readOperands, field_toNat, hw, Instr.opcode, Instr.operandBits,
      Instr.rcb.injEq]
    omega
  | stepf s r | stepb s r =>
    simp only [Instr.wellFormed, decide_eq_true_eq] at h
    have hs := bitOfSlot_le s
    simp only [Instr.readOperands, field_toNat, hw, Instr.opcode, Instr.operandBits,
      Instr.stepf.injEq, Instr.stepb.injEq, ← bitOfSlot_inj, bitOfSlot_slotOfBit]
    omega
  | _ => rfl

/-- Settles O2: the fields of the word are the opcode, zeros and the operands. -/
theorem decodeOfEncode : Obligations.DecodeOfEncode := by
  intro i h
  rw [decode_of_opcode (opcodeField_encode h), if_pos (zeroBits_encode h), readOperands_encode h]

/-! The command of a word. -/

theorem opcode_readOperands (i : Instr) (w : CmdWord) : (i.readOperands w).opcode = i.opcode := by
  cases i <;> rfl

theorem row_readOperands (i : Instr) (w : CmdWord) : (i.readOperands w).row = i.row := by
  cases i <;> rfl

theorem wellFormed_readOperands (i : Instr) (w : CmdWord) : (i.readOperands w).wellFormed = true := by
  cases i with
  | rcb | stepf | stepb =>
    simp only [Instr.readOperands, Instr.wellFormed, field_toNat, Bool.and_eq_true, decide_eq_true_eq]
    omega
  | _ => rfl

/-- With the must-be-zero bits clear, the operands are the whole operand field: no bit is dropped (R71). -/
theorem operandBits_readOperands {i : Instr} {w : CmdWord} (h : i.zeroBits w = 0) :
    (i.readOperands w).operandBits = w.toNat % 4096 := by
  have hz : w.toNat / 2 ^ i.operandWidth % 2 ^ (12 - i.operandWidth) = 0 := by
    rw [← field_toNat]
    exact congrArg BitVec.toNat h
  cases i with
  | sub | rcb | stepf | stepb =>
    simp only [Instr.operandWidth] at hz
    simp only [Instr.readOperands, Instr.operandBits, field_toNat, bitOfSlot_slotOfBit]
    omega
  | _ =>
    simp only [Instr.operandWidth] at hz
    simp only [Instr.readOperands, Instr.operandBits]
    omega

theorem decode_eq_command {w : CmdWord} {i : Instr} (h : decode w = .command i) :
    ∃ j : Instr, opcodeField w = j.opcode ∧ j.zeroBits w = 0 ∧ i = j.readOperands w := by
  rcases opcode_cases (opcodeField w) with h0 | hF | ⟨j, hj⟩
  · cases h.symm.trans (decode_of_no_row (.inl h0))
  · cases h.symm.trans (decode_of_no_row (.inr hF))
  · rw [decode_of_opcode hj] at h
    split at h
    case isTrue hz =>
      cases h
      exact ⟨j, hj, hz, rfl⟩
    case isFalse => cases h

/-- Settles O3, field by field. -/
theorem encodeOfDecode : Obligations.EncodeOfDecode := by
  intro w i h
  obtain ⟨j, hop, hz, rfl⟩ := decode_eq_command h
  have hwf := wellFormed_readOperands j w
  refine ⟨hwf, BitVec.eq_of_toNat_eq ?_⟩
  rw [encode_toNat hwf, opcode_readOperands, operandBits_readOperands hz, ← hop, opcodeField_toNat,
    Nat.div_add_mod]

/-! The rows of the opcode map. -/

theorem exists_row_eq {row : OpcodeRow} (h : row ∈ opcodeMap) : ∃ i : Instr, i.row = row := by
  rw [show opcodeMap = rowCommands.map Instr.row from rfl, List.mem_map] at h
  obtain ⟨i, -, hi⟩ := h
  exact ⟨i, hi⟩

theorem row_mem (i : Instr) : i.row ∈ opcodeMap := by
  cases i <;> simp [opcodeMap, Instr.row]

/-- The word of a well-formed command lies in the command's row, command by command (R74). -/
theorem encode_matches {i : Instr} (h : i.wellFormed = true) :
    encode i &&& i.row.mask = i.row.pattern := by
  cases i with
  | ldk => exact Laws.EncodesToRow.ldk h
  | ldb => exact Laws.EncodesToRow.ldb h
  | rdk => exact Laws.EncodesToRow.rdk h
  | rdb => exact Laws.EncodesToRow.rdb h
  | sub imm8 => exact Laws.EncodesToRow.sub imm8 h
  | subblk => exact Laws.EncodesToRow.subblk h
  | rcb round index => exact Laws.EncodesToRow.rcb round index h
  | stepf s r => exact Laws.EncodesToRow.stepf s r h
  | stepb s r => exact Laws.EncodesToRow.stepb s r h
  | esk => exact Laws.EncodesToRow.esk h
  | dsk => exact Laws.EncodesToRow.dsk h
  | dske => exact Laws.EncodesToRow.dske h
  | enc => exact Laws.EncodesToRow.enc h
  | dec => exact Laws.EncodesToRow.dec h

/-- A field the mask keeps is the pattern's field. -/
theorem field_of_match {w mask pattern : CmdWord} (h : w &&& mask = pattern) (k n : Nat)
    (hm : mask.extractLsb' k n = BitVec.allOnes n) : w.extractLsb' k n = pattern.extractLsb' k n := by
  rw [← h, BitVec.extractLsb'_and, hm, BitVec.and_allOnes]

/-- A row's mask keeps the opcode and the must-be-zero bits (R74). -/
theorem row_mask_fields (i : Instr) :
    opcodeField i.row.mask = BitVec.allOnes 4 ∧ i.zeroBits i.row.mask = BitVec.allOnes _ := by
  cases i <;> simp [opcodeField, Instr.zeroBits, Instr.row, Instr.operandWidth]

theorem row_pattern_fields (i : Instr) :
    opcodeField i.row.pattern = i.opcode ∧ i.zeroBits i.row.pattern = 0 := by
  cases i <;> simp [opcodeField, Instr.zeroBits, Instr.row, Instr.opcode, Instr.operandWidth]

/-- A word that matches a row has its opcode and its must-be-zero bits clear (R74). -/
theorem fields_of_match {i : Instr} {w : CmdWord} (h : w &&& i.row.mask = i.row.pattern) :
    opcodeField w = i.opcode ∧ i.zeroBits w = 0 := by
  obtain ⟨hmop, hmz⟩ := row_mask_fields i
  obtain ⟨hpop, hpz⟩ := row_pattern_fields i
  exact ⟨(field_of_match h _ _ hmop).trans hpop, (field_of_match h _ _ hmz).trans hpz⟩

/-- Settles O4, by the fields of a match and the round trip of O3. -/
theorem rowsMatchDecoding : Obligations.RowsMatchDecoding := by
  intro w row hrow
  constructor
  · intro hmatch
    obtain ⟨i, rfl⟩ := exists_row_eq hrow
    obtain ⟨hop, hz⟩ := fields_of_match hmatch
    exact ⟨i.readOperands w, by rw [decode_of_opcode hop, if_pos hz], row_readOperands i w⟩
  · rintro ⟨i, hd, rfl⟩
    obtain ⟨hwf, rfl⟩ := encodeOfDecode w i hd
    exact encode_matches hwf

/-! Reserved words. -/

theorem exists_reserved_iff {w : CmdWord} :
    (∃ r, decode w = .reserved r) ↔ ¬ ∃ i, decode w = .command i := by
  cases decode w <;> simp

theorem exists_reserved_iff_of_opcode {w : CmdWord} {i : Instr} (h : opcodeField w = i.opcode) :
    (∃ r, decode w = .reserved r) ↔ i.zeroBits w ≠ 0 := by
  rw [decode_of_opcode h]
  split <;> simp_all

theorem reserved_iff_no_row_matches (w : CmdWord) :
    (∃ r, decode w = .reserved r) ↔ ∀ row ∈ opcodeMap, w &&& row.mask ≠ row.pattern := by
  rw [exists_reserved_iff]
  constructor
  · intro hno row hrow hmatch
    obtain ⟨i, hd, -⟩ := (rowsMatchDecoding w row hrow).mp hmatch
    exact hno ⟨i, hd⟩
  · rintro hno ⟨i, hd⟩
    exact hno i.row (row_mem i) ((rowsMatchDecoding w i.row (row_mem i)).mpr ⟨i, hd, rfl⟩)

theorem reserved_iff_fields (w : CmdWord) :
    (∃ r, decode w = .reserved r) ↔
      (opcodeField w = 0x0 ∨ opcodeField w = 0xF ∨
        (opcodeField w ∈ [0x1, 0x2, 0x3, 0x4, 0x6, 0xA, 0xB, 0xC, 0xD, 0xE] ∧ operandField w ≠ 0) ∨
        (opcodeField w = 0x5 ∧ w.extractLsb' 8 4 ≠ 0) ∨
        (opcodeField w = 0x7 ∧ w.extractLsb' 7 5 ≠ 0) ∨
        ((opcodeField w = 0x8 ∨ opcodeField w = 0x9) ∧ w.extractLsb' 5 7 ≠ 0)) := by
  rcases opcode_cases (opcodeField w) with h | h | ⟨i, h⟩
  · simp [decode_of_no_row (.inl h), h]
  · simp [decode_of_no_row (.inr h), h]
  · rw [exists_reserved_iff_of_opcode h, h]
    cases i <;> simp [Instr.opcode, Instr.zeroBits, Instr.operandWidth, operandField]

/-- A word given as its number decodes to the command with that opcode and those operand bits. -/
theorem decode_ofNat {i : Instr} {n : Nat} (h : i.wellFormed = true)
    (hn : n = 4096 * i.opcode.toNat + i.operandBits) : decode (BitVec.ofNat 16 n) = .command i := by
  rw [hn, ← encode_toNat h, BitVec.ofNat_toNat, BitVec.setWidth_eq, decodeOfEncode i h]

theorem decode_rcb_of_number {n : Nat} (h : n < 128) :
    decode (BitVec.ofNat 16 (0x7000 + n)) = .command (.rcb (n / 8) (n % 8)) := by
  refine decode_ofNat ?_ ?_
  · simp only [Instr.wellFormed, Bool.and_eq_true, decide_eq_true_eq]
    omega
  · change 0x7000 + n = 4096 * 7 + (8 * (n / 8) + n % 8)
    omega

theorem decode_stepf_of_number (s : Slot) {r : Nat} (h : r < 16) :
    decode (BitVec.ofNat 16 (0x8000 + 16 * bitOfSlot s + r)) = .command (.stepf s r) := by
  refine decode_ofNat (by simpa [Instr.wellFormed] using h) ?_
  change 0x8000 + 16 * bitOfSlot s + r = 4096 * 8 + (16 * bitOfSlot s + r)
  omega

theorem decode_stepb_of_number (s : Slot) {r : Nat} (h : r < 16) :
    decode (BitVec.ofNat 16 (0x9000 + 16 * bitOfSlot s + r)) = .command (.stepb s r) := by
  refine decode_ofNat (by simpa [Instr.wellFormed] using h) ?_
  change 0x9000 + 16 * bitOfSlot s + r = 4096 * 9 + (16 * bitOfSlot s + r)
  omega

end Sys2Proof
end

section
/-! PROOFS. Presented words: acceptance, the checks of a command and their faults, words that wait, and CALC as the STEPF commands the host presents (30_encoding.md R79 to R82). -/

namespace Sys2Proof.Machine

open Sys2Proof.Config (Params)

/-! Acceptance of a presented word. -/

theorem acceptWord_of_command {w : CmdWord} {i : Instr} (h : decode w = .command i) (s : State) :
    acceptWord w s = exec i s := by
  rw [acceptWord, h]

theorem acceptWord_of_reserved {w : CmdWord} {r : Reserved} (h : decode w = .reserved r) (s : State) :
    acceptWord w s = .next (raiseFault .illegalCmd s) := by
  rw [acceptWord, h]

theorem step_of_presented {s : State} {w : CmdWord} {d : Bus} {rest : List HostAction}
    (hh : s.host = .command w d :: rest) (hp : s.ph = .idle) :
    step s = acceptWord w { s with host := rest, wdata := d } := by
  simp [step, hh, hp]

/-- Settles O6. -/
theorem stepRunsPresentedCommand : Obligations.StepRunsPresentedCommand := by
  intro s w d rest i hh hp hd
  rw [step_of_presented hh hp, acceptWord_of_command hd]

/-- Settles O8. -/
theorem noAcceptanceOutsideIdle : Obligations.NoAcceptanceOutsideIdle := by
  intro i s hp
  rw [exec_eq_accept, accept_of_busy hp]

/-! The checks of a command, in the order of R220. -/

theorem checksOf_round_passes {i : Instr} :
    (checksOf i).round.any roundOutOfRange = false ↔ ∀ r, i.roundOperand = some r → r ≤ 8 := by
  cases hi : i.roundOperand <;> simp [checksOf, hi]

/-- A round operand above 8 raises ROUND_RANGE (R213). -/
theorem exec_of_round_gt {i : Instr} {s : State} {r : Nat} (hp : s.ph = .idle)
    (hi : i.roundOperand = some r) (hr : 8 < r) : exec i s = .next (raiseFault .roundRange s) := by
  rw [exec_eq_accept]
  refine accept_of_fault hp ?_
  simp [firstFault, checksOf, hi, roundOutOfRange_eq_true.mpr hr]

/-- After the round operand comes KV: a command that reads KS raises KEY_INVALID (R214). -/
theorem exec_of_key_invalid {i : Instr} {s : State} (hp : s.ph = .idle)
    (hr : ∀ r, i.roundOperand = some r → r ≤ 8) (hk : i.readsKS = true) (hkv : s.kv = false) :
    exec i s = .next (raiseFault .keyInvalid s) := by
  rw [exec_eq_accept]
  refine accept_of_fault hp ?_
  rw [firstFault, checksOf_round_passes.mpr hr]
  simp [checksOf, hk, hkv]

/-- Last comes BV: a command that reads BLK raises BLK_INVALID (R215). -/
theorem exec_of_blk_invalid {i : Instr} {s : State} (hp : s.ph = .idle)
    (hr : ∀ r, i.roundOperand = some r → r ≤ 8) (hkv : i.readsKS = true → s.kv = true)
    (hb : i.readsBLK = true) (hbv : s.bv = false) :
    exec i s = .next (raiseFault .blkInvalid s) := by
  rw [exec_eq_accept]
  refine accept_of_fault hp ?_
  rw [firstFault, checksOf_round_passes.mpr hr]
  simpa [checksOf, hb, hbv] using hkv

/-- A command whose checks pass has its effect (R80). -/
theorem exec_of_ready {i : Instr} {s : State} (hp : s.ph = .idle)
    (hr : ∀ r, i.roundOperand = some r → r ≤ 8) (hkv : i.readsKS = true → s.kv = true)
    (hbv : i.readsBLK = true → s.bv = true) : exec i s = .next (effectOf i s) := by
  rw [exec_eq_accept]
  exact accept_of_ready hp (firstFault_none.mpr ⟨checksOf_round_passes.mpr hr, hkv, hbv⟩)

/-- Settles O5, part by part. -/
theorem reservedWords : Obligations.ReservedWords := by
  refine ⟨fun w => ⟨reserved_iff_no_row_matches w, reserved_iff_fields w⟩, ?_, ?_, ?_, ?_⟩
  · intro s w d rest r hh hp hd
    rw [step_of_presented hh hp, acceptWord_of_reserved hd]
    rfl
  · exact fun n _ hn => decode_rcb_of_number (by omega)
  · intro r _ hr
    have hr : r < 16 := by omega
    exact ⟨decode_stepf_of_number .zero hr, decode_stepf_of_number .one hr,
      decode_stepb_of_number .zero hr, decode_stepb_of_number .one hr⟩
  · intro s round index sl hp hr
    exact ⟨exec_of_round_gt hp rfl hr, exec_of_round_gt hp rfl hr, exec_of_round_gt hp rfl hr⟩

/-- Settles O1: the words by evaluation, the two round operands above 8 by the check of R213. -/
theorem workedEncodings : Obligations.WorkedEncodings := by
  refine ⟨by decide, by decide, by decide, by decide,
    ⟨by decide, fun s hp => exec_of_round_gt hp rfl (by decide)⟩, by decide, by decide, by decide,
    by decide, ⟨by decide, fun s hp => exec_of_round_gt hp rfl (by decide)⟩, by decide, by decide,
    by decide, by decide, by decide⟩

/-- Settles O34: the words by evaluation, the two cases of KV by the checks. -/
theorem derivationsStart : Obligations.DerivationsStart := by
  refine ⟨by decide, by decide, by decide, fun s hp => ⟨fun hkv => ?_, fun hkv => ?_⟩⟩
  · exact ⟨exec_of_ready hp nofun (fun _ => hkv) nofun, exec_of_ready hp nofun (fun _ => hkv) nofun,
      exec_of_ready hp nofun (fun _ => hkv) nofun⟩
  · exact ⟨exec_of_key_invalid hp nofun rfl hkv, exec_of_key_invalid hp nofun rfl hkv,
      exec_of_key_invalid hp nofun rfl hkv⟩

/-- Settles O35: the words by evaluation, the three cases of KV and BV by the checks. -/
theorem driversStart : Obligations.DriversStart := by
  refine ⟨by decide, by decide, fun s hp => ⟨fun hkv hbv => ?_, fun hkv => ?_, fun hkv hbv => ?_⟩⟩
  · exact ⟨exec_of_ready hp nofun (fun _ => hkv) (fun _ => hbv),
      exec_of_ready hp nofun (fun _ => hkv) (fun _ => hbv)⟩
  · exact ⟨exec_of_key_invalid hp nofun rfl hkv, exec_of_key_invalid hp nofun rfl hkv⟩
  · exact ⟨exec_of_blk_invalid hp nofun (fun _ => hkv) rfl hbv,
      exec_of_blk_invalid hp nofun (fun _ => hkv) rfl hbv⟩

/-! A command that waits. -/

theorem tick_host {s t : State} (h : tick s = .next t) : t.host = s.host := by
  rcases tick_cases h with ⟨-, rfl⟩ | ⟨-, h⟩
  · rfl
  · obtain ⟨-, -, -, -, -, -, hhost, -⟩ := microStep_frame h
    exact hhost

/-- Settles O9: a held command leaves the core to go on by itself, which neither reads nor writes the host's list. -/
theorem heldCommandHasNoEffect : Obligations.HeldCommandHasNoEffect := by
  intro s t w d rest hh hp h
  have hholds : hostHolds s = true := by rw [hostHolds, hh]
  rw [step_of_held hholds hp] at h
  refine ⟨tick_host h, ?_⟩
  change tick { s with host := [] } = _
  rw [tick_withHost, h, mapNext_next]

/-! Runs of steps, and CALC. -/

theorem stateAfter_succ {s t : State} (h : step s = .next t) (n : Nat) :
    stateAfter (n + 1) s = stateAfter n t := by
  have hcore : Sys2Proof.core.step s = .next t := h
  simp only [stateAfter, Host.Core.run, hcore]

/-- Presenting a well-formed command to an idle core runs it (R80). -/
theorem step_of_present {s : State} {i : Instr} (hi : i.wellFormed = true) (p : Payload)
    (rest : List HostAction) (hp : s.ph = .idle) :
    step { s with host := present i p :: rest } = exec i { s with host := rest, wdata := p.bus } :=
  stepRunsPresentedCommand _ _ _ rest i rfl hp (decodeOfEncode i hi)

/-- The state one presented STEPF leaves (R124). -/
def afterStepf (sl : Slot) (r : Nat) (rest : List HostAction) (s : State) : State :=
  { s with host := rest, wdata := 0, ks := xstep params sl r s.ks, rsp := some (.done .empty) }

theorem step_of_present_stepf {s : State} {sl : Slot} {r : Nat} (rest : List HostAction)
    (hp : s.ph = .idle) (hkv : s.kv = true) (hr : r ≤ 8) :
    step { s with host := present (.stepf sl r) .empty :: rest } = .next (afterStepf sl r rest s) := by
  have hwf : (Instr.stepf sl r).wellFormed = true := by
    simp only [Instr.wellFormed, decide_eq_true_eq]
    omega
  rw [step_of_present hwf .empty rest hp]
  exact exec_of_ready hp (by rintro _ ⟨⟩; exact hr) (fun _ => hkv) nofun

/-- `n` STEPF commands with rounds `a, a+1, ...`, alternating from the slot of `d`'s parity (R79). -/
def stepfRun (n d a : Nat) : List Instr :=
  (List.range n).map fun k => .stepf (Slot.ofParity (d + k)) (a + k)

theorem stepfRun_succ (n d a : Nat) :
    stepfRun (n + 1) d a = .stepf (Slot.ofParity d) a :: stepfRun n (d + 1) (a + 1) := by
  simp [stepfRun, List.range_succ_eq_map, Nat.add_comm, Nat.add_left_comm]

theorem pseudoCalc_eq_stepfRun (a b : Nat) : pseudoCalc a b = stepfRun (b + 1 - a) 0 a := by
  simp [pseudoCalc, stepfRun]

/-- A run of STEPF commands leaves what as many alternating XSTEPs leave. -/
theorem stateAfter_stepfRun (n d a : Nat) (s : State) (hp : s.ph = .idle) (hkv : s.kv = true)
    (hr : a + n ≤ 8) :
    stateAfter (n + 1) { s with host := (stepfRun (n + 1) d a).map (present · .empty) } =
      some { s with
        host := [], wdata := 0, ks := calcFrom params (n + 1) (Slot.ofParity d) a s.ks,
        rsp := some (.done .empty) } := by
  induction n generalizing s d a with
  | zero =>
    rw [stepfRun_succ, List.map_cons, stateAfter_succ (step_of_present_stepf _ hp hkv (by omega))]
    rfl
  | succ n ih =>
    rw [stepfRun_succ, List.map_cons,
      stateAfter_succ (step_of_present_stepf _ hp hkv (by omega)), calcFrom, ← Slot.ofParity_succ]
    exact ih (d + 1) (a + 1) (afterStepf (Slot.ofParity d) a [] s) hp hkv (by omega)

/-- A step of R147 is an XSTEP into the slot of the round's parity (R126). -/
theorem walkStep_eq_xstep (P : Params) (r : Nat) (k : KeyState) :
    walkStep P r k = xstep P (Slot.ofParity r) r k := by
  unfold walkStep
  rcases Nat.mod_two_eq_zero_or_one r with h | h
  · rw [if_pos h, Slot.ofParity_even h]; rfl
  · rw [if_neg (by omega), Slot.ofParity_odd h]; rfl

/-- XSTEPs that start in the slot of the first round's parity are the steps of R147, round by round. -/
theorem calcFrom_eq_foldl_walkStep (P : Params) (n a : Nat) (k : KeyState) :
    calcFrom P n (Slot.ofParity a) a k = (List.range' a n).foldl (fun k r => walkStep P r k) k := by
  induction n generalizing a k with
  | zero => rfl
  | succ n ih =>
    rw [calcFrom, ← Slot.ofParity_succ, ih, List.range'_succ, List.foldl_cons, walkStep_eq_xstep]

/-- Settles O32, by induction on the commands, and by CALC as the steps of R147. -/
theorem calcIsRepeatedStep : Obligations.CalcIsRepeatedStep := by
  constructor
  · intro s a b hp hkv hab hb
    obtain ⟨n, hn⟩ : ∃ n, b + 1 - a = n + 1 := ⟨b - a, by omega⟩
    rw [pseudoCalc_eq_stepfRun, calcKey, hn]
    exact stateAfter_stepfRun n 0 a s hp hkv (by omega)
  · intro P k
    exact ⟨calcFrom_eq_foldl_walkStep P 2 0 k, calcFrom_eq_foldl_walkStep P 9 0 k,
      calcFrom_eq_foldl_walkStep P 7 2 k⟩

end Sys2Proof.Machine
end

section
/-! PROOFS. The substitution commands and the reference substitution (40_substitution.md). -/

namespace Sys2Proof.Machine

open Sys2Proof.Config (Params)

/-! SUB. -/

/-- The word of SUB is 0x50 followed by its immediate (R110). -/
theorem encode_sub (imm8 : Byte) : encode (.sub imm8) = 0x50#8 ++ imm8 := by
  apply BitVec.eq_of_toNat_eq
  rw [encode_toNat rfl, BitVec.toNat_append, ← Nat.shiftLeft_add_eq_or_of_lt imm8.isLt,
    Nat.shiftLeft_eq]
  rfl

/-- SUB reads no register and checks nothing. -/
theorem exec_sub (imm8 : Byte) {s : State} (hp : s.ph = .idle) :
    exec (.sub imm8) s = .next { s with rsp := some (.done (.byte (S params imm8))) } :=
  exec_of_ready hp nofun nofun nofun

/-- Settles O22: the word through the round trip of the encoding, the answer through the checks. -/
theorem subAnswersSubstitute : Obligations.SubAnswersSubstitute := by
  refine ⟨fun imm8 => ?_, fun imm8 s hp => exec_sub imm8 hp, by decide, by decide, by decide⟩
  rw [← encode_sub]
  exact decodeOfEncode (.sub imm8) rfl

/-! SUBBLK. -/

/-- SubBlock acts on the lanes alone: it undoes itself exactly when S does (R113). -/
theorem subBlock_involutive_iff (P : Params) :
    (∀ X, subBlock P (subBlock P X) = X) ↔ SInvol P := by
  constructor
  · intro h b
    exact congrArg Block.b0 (h (Block.ofFn fun _ => b))
  · intro h X
    have hS : ∀ b, S P (S P b) = b := h
    simp [subBlock, Block.map, hS]

/-- Settles O23: the two cases of BV by the checks, the involution lane by lane. -/
theorem subblkSubstitutesBlock : Obligations.SubblkSubstitutesBlock := by
  refine ⟨by decide, fun s hp hbv => ?_, fun s hp hbv => ?_, subBlock_involutive_iff, by decide⟩
  · exact exec_of_blk_invalid hp nofun nofun rfl hbv
  · exact exec_of_ready hp nofun nofun fun _ => hbv

/-! RCB. -/

/-- With a round in range RCB answers what SUB answers of 8 round + index (R108, R112). -/
theorem exec_rcb_eq_exec_sub {round : Nat} (index : Nat) {s : State} (hp : s.ph = .idle)
    (hr : round ≤ 8) :
    exec (.rcb round index) s = exec (.sub (BitVec.ofNat 8 (8 * round + index))) s := by
  have hrange : ∀ r, (Instr.rcb round index).roundOperand = some r → r ≤ 8 := by
    rintro _ ⟨⟩
    exact hr
  rw [exec_of_ready hp hrange nofun nofun, exec_sub _ hp, Nat.mul_comm]
  rfl

/-- Settles O24: the word by its number, the range by the check of R213, the answer as that of SUB. -/
theorem rcbAnswersRoundConstant : Obligations.RcbAnswersRoundConstant := by
  refine ⟨fun round index hr hi => decode_ofNat ?_ ?_, fun round index s hp hr => ?_,
    fun round index s hp hr _ => ⟨?_, exec_rcb_eq_exec_sub index hp hr⟩, by decide⟩
  · simp [Instr.wellFormed, hr, hi]
  · exact Nat.add_assoc 0x7000 (8 * round) index
  · exact exec_of_round_gt hp rfl hr
  · rw [exec_rcb_eq_exec_sub index hp hr, exec_sub _ hp]

/-! The reference substitution. -/

/-- The two nibbles of a byte, high one first. -/
def nibbles (b : Byte) : Nibble × Nibble := (b.extractLsb' 4 4, b.extractLsb' 0 4)

/-- The three passes of R102 on the pair of nibbles. -/
def passes (T : Nibble → Byte) (wire : Nibble → Nibble → Nibble × Nibble) :
    Nibble × Nibble → Nibble × Nibble :=
  passPQ T ∘ Function.uncurry wire ∘ passQP T ∘ Function.uncurry wire ∘ passPQ T

theorem sAlg_eq_passes (T : Nibble → Byte) (wire : Nibble → Nibble → Nibble × Nibble) (b : Byte) :
    sAlg T wire b = (passes T wire (nibbles b)).1 ++ (passes T wire (nibbles b)).2 := rfl

theorem nibbles_append (hi lo : Nibble) : nibbles (hi ++ lo) = (hi, lo) :=
  Prod.ext BitVec.extractLsb'_append_eq_left BitVec.extractLsb'_append_eq_right

theorem append_nibbles (b : Byte) : (nibbles b).1 ++ (nibbles b).2 = b :=
  BitVec.extractLsb'_append_extractLsb' (w := 4) (len := 4)

/-- The five layers read the same from either end, so boxes and a wiring that undo themselves make passes that do. -/
theorem passes_involutive {T : Nibble → Byte} {wire : Nibble → Nibble → Nibble × Nibble}
    (hP : (boxP T).Involutive) (hQ : (boxQ T).Involutive) (hW : (Function.uncurry wire).Involutive) :
    (passes T wire).Involutive := by
  have hPQ : (passPQ T).Involutive := hP.prodMap hQ
  have hQP : (passQP T).Involutive := hQ.prodMap hP
  intro h
  simp only [passes, Function.comp_apply]
  rw [hPQ, hW, hQP, hW, hPQ]

theorem sAlg_involutive {T : Nibble → Byte} {wire : Nibble → Nibble → Nibble × Nibble}
    (hP : (boxP T).Involutive) (hQ : (boxQ T).Involutive) (hW : (Function.uncurry wire).Involutive) :
    (sAlg T wire).Involutive := by
  intro b
  rw [sAlg_eq_passes, sAlg_eq_passes, nibbles_append, passes_involutive hP hQ hW, append_nibbles]

theorem boxP_tRef_involutive : (boxP tRef).Involutive := by unfold Function.Involutive; decide

theorem boxQ_tRef_involutive : (boxQ tRef).Involutive := by unfold Function.Involutive; decide

theorem wireRef_wireRef : ∀ h l : Nibble, wireRef (wireRef h l).1 (wireRef h l).2 = (h, l) := by decide

/-- R105: the construction with the reference table and wiring gives the reference substitution. -/
theorem sAlg_reference (b : Byte) : sAlg tRef wireRef b = srefRef b := by
  revert b
  decide +kernel

/-- Settles O25: the boxes and the wiring undo themselves, so S does, and what undoes itself is a permutation; the table entry by entry. -/
theorem referenceSubstitution : Obligations.ReferenceSubstitution := by
  have hS : (S reference).Involutive :=
    sAlg_involutive boxP_tRef_involutive boxQ_tRef_involutive fun h => wireRef_wireRef h.1 h.2
  exact ⟨hS.bijective, hS, sAlg_reference, fun _ => rfl, boxP_tRef_involutive.bijective,
    boxQ_tRef_involutive.bijective, wireRef_wireRef⟩

end Sys2Proof.Machine
end

section
/-! PROOFS. XSTEP and the schedule it walks, the stepping commands, and the micro-step ADVANCE (41_key_schedule_step.md). -/

namespace Sys2Proof.Machine

open Sys2Proof.Config (Params)

/-! XSTEP and the recurrence. -/

/-- XSTEP leaves the slot that F reads alone, so the second one adds the same F (R122). -/
@[simp] theorem xstep_xstep (P : Params) (sl : Slot) (r : Nat) (k : KeyState) :
    xstep P sl r (xstep P sl r k) = k := by
  simp [xstep]

/-- Settles O27: a Block added twice cancels, in the recurrence as in XSTEP. -/
theorem xstepIsInvolution : Obligations.XstepIsInvolution := by
  refine ⟨fun P key r _ => ?_, fun P Y X r => Block.xor_xor_cancel X _, xstep_xstep⟩
  rw [scheduleFrom, Block.xor_xor_cancel]

/-- Settles O30: the window after three steps is three XSTEPs of the first one, taken back one by one. -/
theorem firstSteps : Obligations.FirstSteps := by
  intro P A C
  refine ⟨rfl, ?_⟩
  rintro A' rfl
  refine ⟨rfl, ?_⟩
  rintro C' rfl
  refine ⟨rfl, ?_⟩
  change xstep P .zero 0 (xstep P .one 1 (xstep P .zero 2
    (xstep P .zero 2 (xstep P .one 1 (xstep P .zero 0 ⟨A, C⟩))))) = ⟨A, C⟩
  rw [xstep_xstep, xstep_xstep, xstep_xstep]

/-! The walk of CALC from a raw key. -/

/-- One round more is one XSTEP more, in the slot of its parity (R126, R127). -/
theorem calcKey_succ (P : Params) (r : Nat) (k : KeyState) :
    calcKey P 0 (r + 1) k = xstep P (Slot.ofParity (r + 1)) (r + 1) (calcKey P 0 r k) := by
  have hwalk (b : Nat) : calcKey P 0 b k = (List.range' 0 (b + 1)).foldl (fun k r => walkStep P r k) k :=
    calcFrom_eq_foldl_walkStep P (b + 1) 0 k
  rw [hwalk, hwalk, List.range'_1_concat, List.foldl_concat, walkStep_eq_xstep, Nat.zero_add]

/-- After the forward steps 0 to r the slots hold K[r] and K[r-1], the newer in the slot of r's parity (R126). -/
theorem calcKey_slots (P : Params) (key : KeyState) (r : Nat) :
    (calcKey P 0 r key).get (Slot.ofParity r) = scheduleFrom P key (r + 2) ∧
      (calcKey P 0 r key).get (Slot.ofParity r).other = scheduleFrom P key (r + 1) := by
  induction r with
  | zero => exact ⟨rfl, rfl⟩
  | succ r ih =>
    obtain ⟨hnewest, hprevious⟩ := ih
    rw [calcKey_succ, Slot.ofParity_succ, xstep_get_other, Slot.other_other]
    refine ⟨?_, hnewest⟩
    rw [xstep, KeyState.get_set_same, Slot.other_other, hprevious, hnewest]
    rfl

/-- Settles O31, by induction on the rounds; the step back undoes the last XSTEP. -/
theorem slotParity : Obligations.SlotParity := by
  intro P key r _
  obtain ⟨hnewest, hprevious⟩ := calcKey_slots P key r
  refine ⟨hnewest, hprevious, ?_⟩
  cases r with
  | zero => exact xstep_xstep P .zero 0 key
  | succ r => rw [calcKey_succ, xstep_xstep]; rfl

/-! STEPF and STEPB. -/

theorem roundOperand_stepf_le {sl : Slot} {r : Nat} (hr : r ≤ 8) :
    ∀ q, (Instr.stepf sl r).roundOperand = some q → q ≤ 8 := by
  rintro _ ⟨⟩
  exact hr

theorem exec_stepf_of_ready {sl : Slot} {r : Nat} {s : State} (hp : s.ph = .idle) (hkv : s.kv = true)
    (hr : r ≤ 8) : exec (.stepf sl r) s = .next (stepKey sl r s) :=
  exec_of_ready hp (roundOperand_stepf_le hr) (fun _ => hkv) nofun

/-- The two stepping commands differ in their opcode alone (R125). -/
theorem exec_stepb_eq_exec_stepf (sl : Slot) (r : Nat) (s : State) :
    exec (.stepb sl r) s = exec (.stepf sl r) s := rfl

theorem stepKey_stepKey (sl : Slot) (r : Nat) (s : State) :
    stepKey sl r (stepKey sl r s) = { stepKey sl r s with ks := s.ks } := by
  simp [stepKey, complete]

/-- Settles O28: the word by its number, the three outcomes by the checks, the example by evaluation. -/
theorem stepfStepsForward : Obligations.StepfStepsForward := by
  refine ⟨fun sl r => decode_stepf_of_number sl, fun sl r s hp => ⟨fun hr => ?_, fun hr hkv => ?_,
    fun hr hkv => ?_⟩, by decide⟩
  · exact exec_of_round_gt hp rfl hr
  · exact exec_of_key_invalid hp (roundOperand_stepf_le hr) rfl hkv
  · exact exec_stepf_of_ready hp hkv hr

/-- Settles O29: what STEPF does, and an XSTEP undoes itself. -/
theorem stepbStepsBackward : Obligations.StepbStepsBackward := by
  obtain ⟨-, houtcomes, -⟩ := stepfStepsForward
  refine ⟨fun sl r => decode_stepb_of_number sl, ?_, exec_stepb_eq_exec_stepf, ?_, by decide⟩
  · simpa only [exec_stepb_eq_exec_stepf] using houtcomes
  · intro sl r s t hp hkv hr h
    rw [exec_stepf_of_ready hp hkv hr] at h
    cases h
    have hback : exec (.stepf sl r) (stepKey sl r s) = .next { stepKey sl r s with ks := s.ks } := by
      rw [exec_stepf_of_ready (s := stepKey sl r s) hp hkv hr, stepKey_stepKey]
    exact ⟨hback, hback⟩

/-! ADVANCE. -/

/-- In ADVANCE, with RND in range and the host holding, a step is the micro-step ADVANCE (R130). -/
theorem step_advance {c : SeqCommand} {s : State} (hp : s.ph = .advance) (hh : hostHolds s = true)
    (hop : s.op = c.opcode) (hr : s.rnd.toNat ≤ 8) : step s = .next (advance params c s) := by
  rw [step_of_held hh (by simp [hp]), tick_of_busy (by simp [hp, Phase.busy]),
    microStep_advance hp hop hr]

theorem nextRound_eq (c : SeqCommand) (r : BitVec 4) :
    nextRound c r = if c = .dec then r - 1 else r + 1 := by
  cases c <;> rfl

theorem phaseAfterAdvance_eq (c : SeqCommand) :
    phaseAfterAdvance c = if c = .enc ∨ c = .dec then .apply else .advance := by
  cases c <;> rfl

theorem opcode_eq_dec {c : SeqCommand} : c.opcode = 0xE ↔ c = .dec := by
  cases c <;> decide

/-- DEC walks down from 8 to STOP = 2, every other command up to its STOP (R130). -/
theorem walkOk_bounds {c : SeqCommand} {s : State} (h : walkOk c s = true) :
    (c ≠ .dec → s.rnd.toNat ≤ s.stop.toNat ∧ s.stop.toNat ≤ 8) ∧
      (c = .dec → 2 ≤ s.rnd.toNat ∧ s.stop = 2) := by
  obtain ⟨hmin, hmax, hstop, -⟩ := walkOk_iff.mp h
  constructor
  · intro hc
    have hg : c.greatest = c.stop ∧ c.stop ≤ 8 := by
      cases c <;> simp_all [SeqCommand.greatest, SeqCommand.stop]
    omega
  · rintro rfl
    exact ⟨hmin, BitVec.eq_of_toNat_eq hstop⟩

/-- RND stays or moves by one, without a wrap (R130). -/
theorem advance_rnd_of_walkOk {P : Params} {c : SeqCommand} {s : State} (h : walkOk c s = true) :
    (advance P c s).rnd = s.rnd ∨ (advance P c s).rnd.toNat = s.rnd.toNat + 1 ∨
      s.rnd.toNat = (advance P c s).rnd.toNat + 1 := by
  obtain ⟨hup, hdown⟩ := walkOk_bounds h
  by_cases he : s.rnd = s.stop
  · left
    by_cases hc : c = .enc ∨ c = .dec
    · rw [advance_last_driver P c s he hc]
    · push Not at hc
      rw [advance_last_derivation P c s he hc.1 hc.2]
  · right
    rw [advance_more P c s he, nextRound_eq]
    by_cases hc : c = .dec
    · obtain ⟨hmin, -⟩ := hdown hc
      right
      rw [if_pos hc]
      bv_omega
    · obtain ⟨hmax, hstop⟩ := hup hc
      left
      rw [if_neg hc]
      bv_omega

/-- Settles O37: the three outcomes of ADVANCE, and what the invariant says of RND before and after it. -/
theorem advanceMicroStep : Obligations.AdvanceMicroStep := by
  refine ⟨fun s u c hp hh hop hr hu => ?_, fun s hi hp hh => ?_⟩
  · subst hu
    rw [step_advance hp hh hop hr]
    refine ⟨fun he hc => ?_, fun he hc hd => ?_, fun hne => ?_⟩
    · rw [advance_last_driver params c s he hc]; rfl
    · rw [advance_last_derivation params c s he hc hd]; rfl
    · rw [advance_more params c s hne, nextRound_eq, phaseAfterAdvance_eq]; rfl
  · obtain ⟨hf, hranges, hs⟩ := inv_iff.mp hi
    obtain ⟨hr, -, -⟩ := rangesOk_iff.mp hranges
    obtain ⟨c, hop, hw⟩ := walkOk_of_apply_or_advance hs (.inr hp)
    obtain ⟨hup, hdown⟩ := walkOk_bounds hw
    have hm := microStep_advance (P := params) hp hop hr
    obtain ⟨hrt, -⟩ := microStep_keeps hranges hs hm
    obtain ⟨hrt, -, -⟩ := rangesOk_iff.mp hrt
    obtain ⟨-, -, hfault, -⟩ := microStep_frame hm
    obtain ⟨hclear, -⟩ := (faultOk_of_ph_ne_halt (by simp [hp])).mp hf
    rw [hop, ne_eq, opcode_eq_dec]
    exact ⟨hr, hup, hdown, _, step_advance hp hh hop hr, hfault.trans hclear,
      advance_rnd_of_walkOk hw, hrt⟩

end Sys2Proof.Machine
end

section
/-! PROOFS. The derivations ESK, DSK and DSKE: their INIT, their walk of ADVANCEs, and the start keys they leave (42_start_keys.md). -/

namespace Sys2Proof.Machine

open Sys2Proof.Config (Params)

/-! INIT. -/

/-- In INIT, with the host holding, a step is the micro-step INIT of the command in flight. -/
theorem step_init {c : SeqCommand} {s : State} (hp : s.ph = .init) (hh : hostHolds s = true)
    (hop : s.op = c.opcode) : step s = .next (microInit params c s) := by
  rw [step_of_held hh (by simp [hp]), tick_of_busy (by simp [hp, Phase.busy]), microStep_init hp hop]

/-- Settles O36, derivation by derivation. -/
theorem derivationInit : Obligations.DerivationInit := by
  intro s hp hh
  exact ⟨step_init (c := .esk) hp hh, step_init (c := .dsk) hp hh, step_init (c := .dske) hp hh⟩

/-- INIT of a derivation sets the least round and the STOP of its walk (R146). -/
theorem microInit_derivation (P : Params) {c : SeqCommand} (hc : c.isDriver = false) (s : State) :
    microInit P c s = initDerivation (BitVec.ofNat 4 c.least) (BitVec.ofNat 4 c.stop) s := by
  cases c with
  | esk | dsk | dske => rfl
  | enc | dec => cases hc

/-! Runs that stay busy up to their last step. -/

/-- From `s` the core is at `t` after `n` steps, with a command in flight at each step before. -/
def CompletesIn (n : Nat) (s t : State) : Prop :=
  stateAfter n s = some t ∧ ∀ m < n, ∃ u, stateAfter m s = some u ∧ u.ph.busy = true

theorem completesIn_zero (s : State) : CompletesIn 0 s s := ⟨rfl, nofun⟩

theorem completesIn_succ {n : Nat} {s t u : State} (hb : s.ph.busy = true) (h : step s = .next t)
    (ht : CompletesIn n t u) : CompletesIn (n + 1) s u := by
  obtain ⟨hend, hbusy⟩ := ht
  refine ⟨(stateAfter_succ h n).trans hend, fun m hm => ?_⟩
  cases m with
  | zero => exact ⟨s, rfl, hb⟩
  | succ m => rw [stateAfter_succ h]; exact hbusy m (by omega)

theorem stateAfter_add {m : Nat} {s t : State} (h : stateAfter m s = some t) (n : Nat) :
    stateAfter (m + n) s = stateAfter n t := by
  induction m generalizing s with
  | zero => cases h; rw [Nat.zero_add]
  | succ m ih =>
    cases hs : step s with
    | next u =>
      rw [stateAfter_succ hs] at h
      rw [Nat.add_right_comm, stateAfter_succ hs, ih h]
    | fault r | refused r =>
      have hcore : Sys2Proof.core.step s = _ := hs
      simp [stateAfter, Host.Core.run, hcore] at h

/-! The walk. -/

/-- An ADVANCE of a derivation with RND = STOP completes it (R130). -/
theorem advance_last_of_derivation (P : Params) {c : SeqCommand} (hc : c.isDriver = false) {s : State}
    (h : s.rnd = s.stop) :
    advance P c s =
      { s with
        ks := xstep P s.dst s.rnd.toNat s.ks, rnd := s.stop, dst := s.dst.other, ph := .idle,
        rsp := some (.done .empty) } := by
  rw [advance_last_derivation P c s h (by rintro rfl; cases hc) (by rintro rfl; cases hc), h]

/-- An ADVANCE of a derivation with RND ≠ STOP goes on to the next round (R130). -/
theorem advance_more_of_derivation (P : Params) {c : SeqCommand} (hc : c.isDriver = false) {s : State}
    (h : s.rnd ≠ s.stop) :
    advance P c s =
      { s with
        ks := xstep P s.dst s.rnd.toNat s.ks, dst := s.dst.other, rnd := s.rnd + 1,
        ph := .advance, rsp := none } := by
  rw [advance_more P c s h]
  cases c with
  | esk | dsk | dske => rfl
  | enc | dec => cases hc

/-- The state `n` ADVANCEs of a derivation leave, the last of them with RND = STOP. -/
def afterWalk (n : Nat) (s : State) : State :=
  { s with
    ks := calcFrom params n s.dst s.rnd.toNat s.ks, ph := .idle, rnd := s.stop,
    dst := Slot.other^[n] s.dst, rsp := some (.done .empty) }

/-- From ADVANCE a derivation takes the XSTEPs of the rounds RND to STOP, one a step, and completes. -/
theorem walk_completesIn {c : SeqCommand} (hc : c.isDriver = false) (n : Nat) {s : State}
    (hp : s.ph = .advance) (hh : hostHolds s = true) (hop : s.op = c.opcode)
    (hn : s.rnd.toNat + n = s.stop.toNat) (hstop : s.stop.toNat ≤ 8) :
    CompletesIn (n + 1) s (afterWalk (n + 1) s) := by
  induction n generalizing s with
  | zero =>
    have he : s.rnd = s.stop := BitVec.eq_of_toNat_eq hn
    have hs := step_advance hp hh hop (by omega)
    rw [advance_last_of_derivation params hc he] at hs
    rw [afterWalk, calcFrom, calcFrom]
    exact completesIn_succ (by simp [hp, Phase.busy]) hs (completesIn_zero _)
  | succ n ih =>
    have hne : s.rnd ≠ s.stop := by bv_omega
    have hr : (s.rnd + 1).toNat = s.rnd.toNat + 1 := by bv_omega
    have hn' : (s.rnd + 1).toNat + n = s.stop.toNat := by omega
    have hs := step_advance hp hh hop (by omega)
    rw [advance_more_of_derivation params hc hne] at hs
    rw [afterWalk, calcFrom, ← hr]
    exact completesIn_succ (by simp [hp, Phase.busy]) hs (ih rfl hh hop hn' hstop)

/-! The derivations as functions. -/

/-- The state a derivation leaves: KS is that of CALC over its rounds (R127, R147). -/
def afterDerivation (c : SeqCommand) (s : State) : State :=
  { s with
    ks := calcKey params c.least c.stop s.ks, ph := .idle, rnd := BitVec.ofNat 4 c.stop,
    stop := BitVec.ofNat 4 c.stop, dst := Slot.other^[c.stop + 1 - c.least] .zero,
    rsp := some (.done .empty) }

/-- From INIT a derivation completes in one step more than its walk has rounds (R146, R253). -/
theorem derivation_completesIn {c : SeqCommand} (hc : c.isDriver = false) {s : State}
    (hp : s.ph = .init) (hh : hostHolds s = true) (hop : s.op = c.opcode) :
    CompletesIn (c.stop + 1 - c.least + 1) s (afterDerivation c s) := by
  have hbounds : c.least ≤ c.stop ∧ c.stop ≤ 8 := by cases c <;> decide
  obtain ⟨n, hn⟩ : ∃ n, c.stop + 1 - c.least = n + 1 := ⟨c.stop - c.least, by omega⟩
  have hleast : (BitVec.ofNat 4 c.least).toNat = c.least := by simp; omega
  have hstop : (BitVec.ofNat 4 c.stop).toNat = c.stop := by simp; omega
  have hs := step_init hp hh hop
  rw [microInit_derivation params hc] at hs
  have hwalk := walk_completesIn hc n
    (s := initDerivation (BitVec.ofNat 4 c.least) (BitVec.ofNat 4 c.stop) s) rfl hh hop
    (by rw [initDerivation_rnd, initDerivation_stop]; omega) (by rw [initDerivation_stop]; omega)
  have hrun := completesIn_succ (by simp [hp, Phase.busy]) hs hwalk
  simpa [afterWalk, afterDerivation, calcKey, initDerivation, hn, hleast] using hrun

/-- Settles O40: each derivation is the CALC of its rounds, and that is the function of R147. -/
theorem derivationsAsFunctions : Obligations.DerivationsAsFunctions := by
  intro s hp hh
  obtain ⟨-, hcalc⟩ := calcIsRepeatedStep
  obtain ⟨hesk, hdsk, hdske⟩ := hcalc params s.ks
  rw [← hesk, ← hdsk, ← hdske]
  exact ⟨derivation_completesIn (c := .esk) rfl hp hh, derivation_completesIn (c := .dsk) rfl hp hh,
    derivation_completesIn (c := .dske) rfl hp hh⟩

/-! ESK then DSKE. -/

/-- The rounds of ESK are the first two of DSK, those of DSKE the other seven (R144). -/
theorem dskeResult_eskResult (P : Params) (k : KeyState) :
    dskeResult P (eskResult P k) = dskResult P k := rfl

/-- The command that starts a sequence. -/
def SeqCommand.instr : SeqCommand → Instr
  | .esk => .esk
  | .dsk => .dsk
  | .dske => .dske
  | .enc => .enc
  | .dec => .dec

theorem wellFormed_instr (c : SeqCommand) : c.instr.wellFormed = true := by cases c <;> rfl

theorem roundOperand_instr (c : SeqCommand) : c.instr.roundOperand = none := by cases c <;> rfl

theorem readsBLK_instr (c : SeqCommand) : c.instr.readsBLK = c.isDriver := by cases c <;> rfl

theorem effectOf_instr (c : SeqCommand) (s : State) :
    effectOf c.instr s = startSequence c.opcode s := by
  cases c <;> rfl

/-- Presented to an idle core with its registers loaded, a sequenced command starts (R80). -/
theorem step_of_present_sequenced {c : SeqCommand} {s : State} (rest : List HostAction)
    (hp : s.ph = .idle) (hl : loadedFor c s = true) :
    step { s with host := present c.instr .empty :: rest } =
      .next (startSequence c.opcode { s with host := rest, wdata := 0 }) := by
  obtain ⟨hkv, hbv⟩ := loadedFor_iff.mp hl
  rw [step_of_present (wellFormed_instr c) .empty rest hp, ← effectOf_instr]
  exact exec_of_ready hp (by simp [roundOperand_instr]) (fun _ => hkv) (readsBLK_instr c ▸ hbv)

/-- The state a derivation leaves once presented to an idle core. -/
def afterPresented (c : SeqCommand) (rest : List HostAction) (s : State) : State :=
  afterDerivation c (startSequence c.opcode { s with host := rest, wdata := 0 })

/-- A derivation presented to an idle core takes one step to start and then those from INIT on (R253). -/
theorem stateAfter_present_derivation {c : SeqCommand} (hc : c.isDriver = false) {s : State}
    (rest : List HostAction) (hp : s.ph = .idle) (hkv : s.kv = true)
    (hh : hostHolds { s with host := rest } = true) :
    stateAfter (c.stop + 1 - c.least + 1 + 1) { s with host := present c.instr .empty :: rest } =
      some (afterPresented c rest s) := by
  have hl : loadedFor c s = true := loadedFor_iff.mpr ⟨hkv, by simp [hc]⟩
  obtain ⟨hend, -⟩ := derivation_completesIn hc
    (s := startSequence c.opcode { s with host := rest, wdata := 0 }) rfl hh rfl
  exact (stateAfter_succ (step_of_present_sequenced rest hp hl) _).trans hend

theorem stateAfter_present_esk_dske {s : State} (hp : s.ph = .idle) (hkv : s.kv = true) :
    stateAfter 13 { s with host := [present .esk .empty, present .dske .empty] } =
      some (afterPresented .dske [] (afterPresented .esk [present .dske .empty] s)) := by
  have hesk := stateAfter_present_derivation (c := .esk) rfl [present .dske .empty] hp hkv rfl
  have hdske := stateAfter_present_derivation (c := .dske) rfl []
    (s := afterPresented .esk [present .dske .empty] s) rfl hkv rfl
  exact (stateAfter_add hesk 9).trans hdske

/-- Settles O43: the two rounds of ESK and the seven of DSKE are the nine of DSK, in the functions of R147 and so in the CALCs the commands leave. -/
theorem forwardConsistency : Obligations.ForwardConsistency := by
  refine ⟨dskeResult_eskResult, fun s hp hkv => ⟨_, _, stateAfter_present_esk_dske hp hkv,
    stateAfter_present_derivation (c := .dsk) rfl [] hp hkv rfl, rfl, rfl, ?_⟩⟩
  obtain ⟨-, hcalc⟩ := calcIsRepeatedStep
  obtain ⟨hesk, hdsk, -⟩ := hcalc params s.ks
  obtain ⟨-, -, hdske⟩ := hcalc params (calcKey params 0 1 s.ks)
  calc calcKey params 2 8 (calcKey params 0 1 s.ks)
      = dskeResult params (eskResult params s.ks) := by rw [hdske, hesk]
    _ = dskResult params s.ks := dskeResult_eskResult params s.ks
    _ = calcKey params 0 8 s.ks := hdsk.symm

/-! The start keys as windows of the schedule. -/

/-- After a walk that ends in an even round, slot 0 holds the newest Block of the schedule (R126). -/
theorem calcKey_of_even (P : Params) (key : KeyState) {r : Nat} (h : r % 2 = 0) :
    calcKey P 0 r key = ⟨scheduleFrom P key (r + 2), scheduleFrom P key (r + 1)⟩ := by
  have hslots := calcKey_slots P key r
  rw [Slot.ofParity_even h] at hslots
  obtain ⟨hnewest, hprevious⟩ := hslots
  rw [← hnewest, ← hprevious]
  rfl

/-- After a walk that ends in an odd round, slot 1 does (R126). -/
theorem calcKey_of_odd (P : Params) (key : KeyState) {r : Nat} (h : r % 2 = 1) :
    calcKey P 0 r key = ⟨scheduleFrom P key (r + 1), scheduleFrom P key (r + 2)⟩ := by
  have hslots := calcKey_slots P key r
  rw [Slot.ofParity_odd h] at hslots
  obtain ⟨hnewest, hprevious⟩ := hslots
  rw [← hnewest, ← hprevious]
  rfl

/-- Settles O44: ESK and DSK are walks from the raw key to rounds 1 and 8, and DSKE takes the one to the other. -/
theorem startKeysAreWindows : Obligations.StartKeysAreWindows := by
  intro P key
  obtain ⟨-, hcalc⟩ := calcIsRepeatedStep
  obtain ⟨hcalcEsk, hcalcDsk, -⟩ := hcalc P key
  have hesk : eskResult P key = ⟨scheduleBlock P key 0, scheduleBlock P key 1⟩ :=
    hcalcEsk.symm.trans (calcKey_of_odd P key (r := 1) rfl)
  have hdsk : dskResult P key = ⟨scheduleBlock P key 8, scheduleBlock P key 7⟩ :=
    hcalcDsk.symm.trans (calcKey_of_even P key (r := 8) rfl)
  exact ⟨hesk, hdsk, by rw [← hesk, dskeResult_eskResult, hdsk]⟩

end Sys2Proof.Machine
end

section
/-! PROOFS. The micro-steps of the drivers ENC and DEC (43_cipher_drivers.md R156 to R164). -/

namespace Sys2Proof.Machine

open Sys2Proof.Config (Params)

/-- With a command in flight and the host holding, a step is a micro-step (R254). -/
theorem step_of_busy {s : State} (hb : s.ph.busy = true) (hh : hostHolds s = true) :
    step s = microStep params s := by
  rw [step_of_held hh (by rintro hp; simp [hp, Phase.busy] at hb), tick_of_busy hb]

/-- What INIT of a driver makes of BLK and KS[0] (R156, R162); a derivation leaves BLK alone. -/
def SeqCommand.initBlock (P : Params) : SeqCommand → Block → Block → Block
  | .enc, X, K => X.xor K
  | .dec, X, K => subBlock P (X.xor K)
  | .esk, X, _ | .dsk, X, _ | .dske, X, _ => X

/-- What APPLY of a driver makes of BLK, the key Block and the round (R157, R163); a derivation has no APPLY. -/
def SeqCommand.applyBlock (P : Params) : SeqCommand → Block → Block → Nat → Block
  | .enc => P.rt
  | .dec => P.irt
  | .esk | .dsk | .dske => fun X _ _ => X

/-- What FINAL of a driver makes of BLK and the key Block (R159, R164); a derivation has no FINAL. -/
def SeqCommand.finalBlock (P : Params) : SeqCommand → Block → Block → Block
  | .enc, X, K => (subBlock P X).xor K
  | .dec, X, K => X.xor K
  | .esk, X, _ | .dsk, X, _ | .dske, X, _ => X

/-- The round index INIT sets: the first of the walk (R146, R156, R162). -/
def SeqCommand.firstRound : SeqCommand → BitVec 4
  | .esk | .dsk => 0
  | .dske | .enc => 2
  | .dec => 8

theorem microInit_driver (P : Params) {c : SeqCommand} (hd : c.isDriver = true) (s : State) :
    microInit P c s =
      { s with
        blk := c.initBlock P s.blk s.ks.slot0, rnd := c.firstRound,
        stop := BitVec.ofNat 4 c.stop, dst := .zero, ph := .apply, rsp := none } := by
  rcases isDriver_iff.mp hd with rfl | rfl <;> rfl

theorem microStep_apply {P : Params} {c : SeqCommand} {s : State} (hd : c.isDriver = true)
    (hp : s.ph = .apply) (hop : s.op = c.opcode) (hr : s.rnd.toNat ≤ 8) :
    microStep P s = .next { s with
      blk := c.applyBlock P s.blk (s.ks.get s.dst.other) s.rnd.toNat, ph := .advance, rsp := none } := by
  have hrange := roundOutOfRange_eq_false.mpr hr
  rcases isDriver_iff.mp hd with rfl | rfl
  · exact (by simp [microStep, hp, hop, hrange] : microStep P s = .next (applyEnc P s))
  · exact (by simp [microStep, hp, hop, hrange] : microStep P s = .next (applyDec P s))

theorem microStep_final {P : Params} {c : SeqCommand} {s : State} (hd : c.isDriver = true)
    (hp : s.ph = .final) (hop : s.op = c.opcode) :
    microStep P s = .next { s with
      blk := c.finalBlock P s.blk (s.ks.get s.dst.other), ph := .idle, rsp := some (.done .empty) } := by
  rcases isDriver_iff.mp hd with rfl | rfl
  · exact (by simp [microStep, hp, hop] : microStep P s = .next (finalEnc P s))
  · exact (by simp [microStep, hp, hop] : microStep P s = .next (finalDec s))

/-- In FINAL the last ADVANCE wrote slot 0, so DST is 1. -/
theorem dst_of_inv_final {s : State} (hi : s.inv = true) (hp : s.ph = .final) : s.dst = .one := by
  obtain ⟨-, -, hs⟩ := inv_iff.mp hi
  obtain ⟨c, hop, -⟩ := exists_command_of_busy hs (by simp [hp, Phase.busy])
  obtain ⟨-, -, -, -, hdst⟩ := (sequencerOk_final hp hop).mp hs
  exact hdst

section
variable {c : SeqCommand} {s : State} (hd : c.isDriver = true) (hh : hostHolds s = true)
  (hop : s.op = c.opcode)
include hd hh hop

theorem step_apply (hp : s.ph = .apply) (hr : s.rnd.toNat ≤ 8) :
    step s = .next { s with
      blk := c.applyBlock params s.blk (s.ks.get s.dst.other) s.rnd.toNat, ph := .advance,
      rsp := none } := by
  rw [step_of_busy (by simp [hp, Phase.busy]) hh, microStep_apply hd hp hop hr]

theorem step_final (hp : s.ph = .final) :
    step s = .next { s with
      blk := c.finalBlock params s.blk (s.ks.get s.dst.other), ph := .idle,
      rsp := some (.done .empty) } := by
  rw [step_of_busy (by simp [hp, Phase.busy]) hh, microStep_final hd hp hop]

end

/-- Settles O38, micro-step by micro-step. -/
theorem encMicroSteps : Obligations.EncMicroSteps := by
  intro s hh hop
  exact ⟨fun hp => step_init (c := .enc) hp hh hop, step_apply (c := .enc) rfl hh hop,
    step_final (c := .enc) rfl hh hop, fun hp hi => dst_of_inv_final hi hp⟩

/-- Settles O39, micro-step by micro-step. -/
theorem decMicroSteps : Obligations.DecMicroSteps := by
  intro s hh hop
  exact ⟨fun hp => step_init (c := .dec) hp hh hop, step_apply (c := .dec) rfl hh hop,
    step_final (c := .dec) rfl hh hop, fun hp hi => dst_of_inv_final hi hp⟩

end Sys2Proof.Machine
end

section
/-! PROOFS. Control never depends on data (43_cipher_drivers.md R171, 60_exceptions.md R217): a step taken side by side from two states with the same control. -/

namespace Sys2Proof.Machine

open Sys2Proof.Config (Params)

/-- What two steps from states with the same control answer. -/
def DataHidden (s t : State) : Prop :=
  sameControl s t ∧ t.rsp.map Response.shape = s.rsp.map Response.shape

/-- Both hosts go on with lists of one shape, the buses free. -/
theorem sameControl_presented {s t : State} (h : sameControl s t) {l m : List HostAction}
    (hl : m.map HostAction.shape = l.map HostAction.shape) (d e : Bus) :
    sameControl { s with host := l, wdata := d } { t with host := m, wdata := e } :=
  ⟨by rw [h.1], hl⟩

/-! The host's next action, seen through its shape. -/

theorem HostAction.shape_eq_command {a : HostAction} {w : CmdWord} {d : Bus} :
    a.shape = (HostAction.command w d).shape ↔ ∃ e, a = .command w e := by
  cases a <;> simp

theorem HostAction.shape_eq_wait {a : HostAction} : a.shape = HostAction.wait.shape ↔ a = .wait := by
  cases a <;> simp

theorem HostAction.shape_eq_reset {a : HostAction} : a.shape = HostAction.reset.shape ↔ a = .reset := by
  cases a <;> simp

theorem hostHolds_of_shape {s t : State} (h : t.host.map HostAction.shape = s.host.map HostAction.shape) :
    hostHolds t = hostHolds s := by
  unfold hostHolds
  rcases hs : s.host with _ | ⟨a, l⟩ <;> rcases ht : t.host with _ | ⟨b, m⟩
  · rfl
  · simp [hs, ht] at h
  · simp [hs, ht] at h
  · rw [hs, ht, List.map_cons, List.map_cons, List.cons.injEq] at h
    cases a <;> cases b <;> simp_all

/-! The core going on by itself. -/

theorem advance_dataHidden {P : Params} {s t : State} (h : sameControl s t) (c : SeqCommand) :
    DataHidden (advance P c s) (advance P c t) := by
  obtain ⟨-, -, -, -, hrnd, hstop, -⟩ := sameControl_fields h
  by_cases he : s.rnd = s.stop
  · have het : t.rnd = t.stop := by rw [hrnd, hstop, he]
    by_cases hc : c = .enc ∨ c = .dec
    · rw [advance_last_driver P c s he hc, advance_last_driver P c t het hc]
      exact ⟨⟨by rw [h.1], h.2⟩, rfl⟩
    · push Not at hc
      rw [advance_last_derivation P c s he hc.1 hc.2, advance_last_derivation P c t het hc.1 hc.2]
      exact ⟨⟨by rw [h.1], h.2⟩, rfl⟩
  · have het : t.rnd ≠ t.stop := by rwa [hrnd, hstop]
    rw [advance_more P c s he, advance_more P c t het]
    exact ⟨⟨by rw [h.1], h.2⟩, rfl⟩

/-- PH, OP and RND alone choose the micro-step. -/
theorem microStep_dataHidden {P : Params} {s t s' : State} (h : sameControl s t)
    (hs : microStep P s = .next s') : BothNext DataHidden (microStep P s) (microStep P t) := by
  obtain ⟨hph, -, -, hop, hrnd, -⟩ := sameControl_fields h
  rcases microStep_cases hs with ⟨c, hp, ho, rfl⟩ | ⟨hp, ho, hr, rfl⟩ | ⟨hp, ho, hr, rfl⟩ |
    ⟨c, hp, ho, hr, rfl⟩ | ⟨hp, ho, rfl⟩ | ⟨hp, ho, rfl⟩
  · refine ⟨_, _, hs, microStep_init (hph.trans hp) (hop.trans ho), ?_⟩
    cases c <;> exact ⟨⟨by rw [h.1]; rfl, h.2⟩, rfl⟩
  · refine ⟨_, _, hs, microStep_apply (c := .enc) rfl (hph.trans hp) (hop.trans ho) (hrnd ▸ hr), ?_⟩
    exact ⟨⟨by rw [h.1]; rfl, h.2⟩, rfl⟩
  · refine ⟨_, _, hs, microStep_apply (c := .dec) rfl (hph.trans hp) (hop.trans ho) (hrnd ▸ hr), ?_⟩
    exact ⟨⟨by rw [h.1]; rfl, h.2⟩, rfl⟩
  · exact ⟨_, _, hs, microStep_advance (hph.trans hp) (hop.trans ho) (hrnd ▸ hr),
      advance_dataHidden h c⟩
  · refine ⟨_, _, hs, microStep_final (c := .enc) rfl (hph.trans hp) (hop.trans ho), ?_⟩
    exact ⟨⟨by rw [h.1]; rfl, h.2⟩, rfl⟩
  · refine ⟨_, _, hs, microStep_final (c := .dec) rfl (hph.trans hp) (hop.trans ho), ?_⟩
    exact ⟨⟨by rw [h.1]; rfl, h.2⟩, rfl⟩

theorem tick_dataHidden {s t s' : State} (h : sameControl s t) (hs : tick s = .next s') :
    BothNext DataHidden (tick s) (tick t) := by
  obtain ⟨hph, -⟩ := sameControl_fields h
  refine tick_bothNext hph (fun _ => ⟨⟨by rw [h.1]; rfl, h.2⟩, rfl⟩) (fun hb => ?_)
  rw [tick_of_busy hb] at hs
  exact microStep_dataHidden h hs

/-! Acceptance. -/

/-- The length of a command's answer is the command's alone (R73). -/
theorem effectOf_rsp_shape (i : Instr) (s t : State) :
    (effectOf i t).rsp.map Response.shape = (effectOf i s).rsp.map Response.shape := by
  cases i <;> simp [effectOf, stepKey, Payload.shape]

/-- A command writes data into KS, BLK and its payload alone (R171). -/
theorem effectOf_dataHidden {s t : State} (h : sameControl s t) (i : Instr) :
    DataHidden (effectOf i s) (effectOf i t) := by
  refine ⟨?_, effectOf_rsp_shape i s t⟩
  cases i <;> exact ⟨by rw [h.1]; rfl, h.2⟩

theorem acceptWord_dataHidden {s t : State} (h : sameControl s t) (hp : s.ph = .idle) (w : CmdWord) :
    BothNext DataHidden (acceptWord w s) (acceptWord w t) := by
  obtain ⟨hph, hkv, hbv, -⟩ := sameControl_fields h
  exact acceptWord_bothNext hp (hph.trans hp) hkv hbv (fun _ => ⟨⟨by rw [h.1]; rfl, h.2⟩, rfl⟩)
    (fun i _ => effectOf_dataHidden h i) w

/-! A whole step. -/

theorem step_of_wait {s : State} {rest : List HostAction} (hh : s.host = .wait :: rest) :
    step s = tick { s with host := rest } := by
  rw [step, hh]

theorem step_of_reset {s : State} {rest : List HostAction} (hh : s.host = .reset :: rest) :
    step s = .next (applyReset { s with host := rest }) := by
  rw [step, hh]

theorem step_of_not_accepted {s : State} (hh : hostHolds s = true) (hi : s.host ≠ [] → s.ph ≠ .idle) :
    step s = tick s := by
  by_cases hnil : s.host = []
  · rw [step, hnil]
  · exact step_of_held hh (hi hnil)

/-- The other host's list when one of them begins with an action. -/
theorem exists_cons_of_shape {l m rest : List HostAction} {a : HostAction}
    (h : m.map HostAction.shape = l.map HostAction.shape) (hl : l = a :: rest) :
    ∃ b tail, m = b :: tail ∧ b.shape = a.shape ∧
      tail.map HostAction.shape = rest.map HostAction.shape := by
  rw [hl, List.map_cons] at h
  exact List.map_eq_cons_iff.mp h

theorem step_dataHidden {s t s' : State} (h : sameControl s t) (hs : step s = .next s') :
    BothNext DataHidden (step s) (step t) := by
  obtain ⟨hph, -⟩ := sameControl_fields h
  rcases step_cases hs with ⟨rest, hh, -⟩ | ⟨w, d, rest, hh, hp, -⟩ | ⟨rest, hh, htick⟩ |
    ⟨hh, hidle, htick⟩
  · obtain ⟨b, tail, ht, hb, htail⟩ := exists_cons_of_shape h.2 hh
    obtain rfl := HostAction.shape_eq_reset.mp hb
    rw [step_of_reset hh, step_of_reset ht]
    exact bothNext_next ⟨⟨by rw [h.1]; rfl, htail⟩, rfl⟩
  · obtain ⟨b, tail, ht, hb, htail⟩ := exists_cons_of_shape h.2 hh
    obtain ⟨e, rfl⟩ := HostAction.shape_eq_command.mp hb
    rw [step_of_presented hh hp, step_of_presented ht (hph.trans hp)]
    exact acceptWord_dataHidden (sameControl_presented h htail d e) hp w
  · obtain ⟨b, tail, ht, hb, htail⟩ := exists_cons_of_shape h.2 hh
    obtain rfl := HostAction.shape_eq_wait.mp hb
    rw [step_of_wait hh, step_of_wait ht]
    exact tick_dataHidden (sameControl_presented h htail s.wdata t.wdata) htick
  · have hht : hostHolds t = true := (hostHolds_of_shape h.2).trans hh
    have hidlet : t.host ≠ [] → t.ph ≠ .idle := by
      rw [hph, ne_eq, ← List.map_eq_nil_iff (f := HostAction.shape), h.2, List.map_eq_nil_iff]
      exact hidle
    rw [step_of_not_accepted hh hidle, step_of_not_accepted hht hidlet]
    exact tick_dataHidden h htick

/-- Settles O55, a step taken side by side from the two states. -/
theorem controlIndependentOfData : Obligations.ControlIndependentOfData := by
  intro s t s' h hs
  obtain ⟨u, t', hu, ht, hsame, hrsp⟩ := step_dataHidden h hs
  cases hs.symm.trans hu
  obtain ⟨-, -, -, -, -, -, -, hstatus, -⟩ := sameControl_fields hsame
  exact ⟨t', ht, hsame, hrsp, rspValid_of_shape hrsp, hstatus⟩

end Sys2Proof.Machine
end

section
/-! PROOFS. The drivers from the start keys: the windows of the schedule they walk, what they leave in KS, and the round trip (43_cipher_drivers.md R160, R166 to R168). -/

namespace Sys2Proof.Machine

open Sys2Proof.Config (Params)

/-! The walk between the windows `calcKey P 0 r key`, which hold K[r] and K[r-1]. -/

theorem currentBlock_eq_get (r : Nat) (k : KeyState) :
    currentBlock r k = k.get (Slot.ofParity r).other := by
  unfold currentBlock
  rcases Nat.mod_two_eq_zero_or_one r with h | h
  · rw [if_pos h, Slot.ofParity_even h]; rfl
  · rw [if_neg (by omega), Slot.ofParity_odd h]; rfl

section
variable (P : Params) (key : KeyState) (r : Nat)

/-- Walking up, the next round reads the newer Block of the window. -/
theorem currentBlock_forward : currentBlock (r + 1) (calcKey P 0 r key) = scheduleBlock P key r := by
  rw [currentBlock_eq_get, Slot.ofParity_succ, Slot.other_other]
  exact (calcKey_slots P key r).1

theorem walkStep_forward : walkStep P (r + 1) (calcKey P 0 r key) = calcKey P 0 (r + 1) key := by
  rw [walkStep_eq_xstep, calcKey_succ]

/-- Walking down, the round of the newest Block reads the older one. -/
theorem currentBlock_backward :
    currentBlock (r + 1) (calcKey P 0 (r + 1) key) = scheduleBlock P key r := by
  rw [currentBlock_eq_get]
  exact (calcKey_slots P key (r + 1)).2

/-- The XSTEP that made the newest Block takes it back (R122). -/
theorem walkStep_backward : walkStep P (r + 1) (calcKey P 0 (r + 1) key) = calcKey P 0 r key := by
  rw [walkStep_eq_xstep, calcKey_succ, xstep_xstep]

theorem foldl_walkStep_forward (n : Nat) :
    (List.range n).foldl (fun k j => walkStep P (2 + j) k) (calcKey P 0 1 key) =
      calcKey P 0 (1 + n) key := by
  induction n with
  | zero => rfl
  | succ n ih =>
    rw [List.range_succ, List.foldl_concat, ih, Nat.add_right_comm 1 1 n, walkStep_forward]
    rfl

theorem foldl_walkStep_backward {n : Nat} (hn : n ≤ 8) :
    (List.range n).foldl (fun k j => walkStep P (8 - j) k) (calcKey P 0 8 key) =
      calcKey P 0 (8 - n) key := by
  induction n with
  | zero => rfl
  | succ n ih =>
    obtain ⟨m, hm⟩ : ∃ m, 8 - n = m + 1 := ⟨7 - n, by omega⟩
    rw [List.range_succ, List.foldl_concat, ih (by omega), hm, walkStep_backward, ← Nat.sub_sub, hm]
    rfl

end

/-! The rounds of a driver with the Blocks of the schedule in place of the window. -/

section
variable (P : Params) (key : KeyState)

/-- APPLY of ENC with K[r-1] (R160). -/
def rtRound (X : Block) (r : Nat) : Block := P.rt X (scheduleBlock P key (r - 1)) r

/-- APPLY of DEC with K[r-1] (R167). -/
def irtRound (X : Block) (r : Nat) : Block := P.irt X (scheduleBlock P key (r - 1)) r

theorem encRound_window (X : Block) (r : Nat) :
    encRound P (X, calcKey P 0 r key) (r + 1) =
      (rtRound P key X (r + 1), calcKey P 0 (r + 1) key) := by
  rw [encRound, currentBlock_forward, walkStep_forward]
  rfl

theorem decRound_window (X : Block) (r : Nat) :
    decRound P (X, calcKey P 0 (r + 1) key) (r + 1) =
      (irtRound P key X (r + 1), calcKey P 0 r key) := by
  rw [decRound, currentBlock_backward, walkStep_backward]
  rfl

theorem foldl_encRound_window (n r : Nat) (X : Block) :
    (List.range' (r + 1) n).foldl (encRound P) (X, calcKey P 0 r key) =
      ((List.range' (r + 1) n).foldl (rtRound P key) X, calcKey P 0 (r + n) key) := by
  induction n generalizing r X with
  | zero => rfl
  | succ n ih =>
    rw [List.range'_succ, List.foldl_cons, List.foldl_cons, encRound_window, ih,
      Nat.add_right_comm r 1 n]
    rfl

theorem foldl_decRound_window (n r : Nat) (X : Block) :
    (List.range' (r + 1) n).reverse.foldl (decRound P) (X, calcKey P 0 (r + n) key) =
      ((List.range' (r + 1) n).reverse.foldl (irtRound P key) X, calcKey P 0 r key) := by
  induction n generalizing X with
  | zero => rfl
  | succ n ih =>
    rw [List.range'_1_concat, List.reverse_concat, List.foldl_cons, List.foldl_cons,
      Nat.add_right_comm r 1 n, ← Nat.add_assoc, decRound_window, ih]

/-- ENC from the encrypt start key of a raw key (R160). -/
theorem encResult_startKey (b : Block) :
    encResult P b (calcKey P 0 1 key) =
      ((subBlock P ([2, 3, 4, 5, 6, 7, 8].foldl (rtRound P key) (b.xor (scheduleBlock P key 0)))).xor
          (scheduleBlock P key 8),
        calcKey P 0 8 key) := by
  have hrounds := foldl_encRound_window P key 7 1 (b.xor (scheduleBlock P key 0))
  have hfirst : (calcKey P 0 1 key).slot0 = scheduleBlock P key 0 := (calcKey_slots P key 1).2
  have hlast : (calcKey P 0 8 key).slot0 = scheduleBlock P key 8 := (calcKey_slots P key 8).1
  simp only [List.range', Nat.reduceAdd] at hrounds
  simp only [encResult, hfirst, hrounds, hlast]

/-- DEC from the decrypt start key of a raw key (R167). -/
theorem decResult_startKey (b : Block) :
    decResult P b (calcKey P 0 8 key) =
      (([8, 7, 6, 5, 4, 3, 2].foldl (irtRound P key)
          (subBlock P (b.xor (scheduleBlock P key 8)))).xor (scheduleBlock P key 0),
        calcKey P 0 1 key) := by
  have hrounds := foldl_decRound_window P key 7 1 (subBlock P (b.xor (scheduleBlock P key 8)))
  have hfirst : (calcKey P 0 8 key).slot0 = scheduleBlock P key 8 := (calcKey_slots P key 8).1
  have hlast : (calcKey P 0 1 key).slot0 = scheduleBlock P key 0 := (calcKey_slots P key 1).2
  simp only [List.range', Nat.reduceAdd, List.reverse_cons, List.reverse_nil, List.nil_append,
    List.cons_append] at hrounds
  simp only [decResult, hfirst, hrounds, hlast]

end

theorem eskResult_eq_calcKey (P : Params) (key : KeyState) : eskResult P key = calcKey P 0 1 key := by
  obtain ⟨-, hcalc⟩ := calcIsRepeatedStep
  obtain ⟨hesk, -⟩ := hcalc P key
  exact hesk.symm

theorem dskResult_eq_calcKey (P : Params) (key : KeyState) : dskResult P key = calcKey P 0 8 key := by
  obtain ⟨-, hcalc⟩ := calcIsRepeatedStep
  obtain ⟨-, hdsk, -⟩ := hcalc P key
  exact hdsk.symm

/-- Settles O45: the walk of ENC goes up from window 1 to window 8, that of DEC down again. -/
theorem spentKeyState : Obligations.SpentKeyState := by
  intro P key b
  rw [eskResult_eq_calcKey, dskResult_eq_calcKey, encResult_startKey, decResult_startKey]
  exact ⟨rfl, rfl⟩

/-- Steps that undo one another, taken back in reverse order, undo the fold. -/
theorem foldl_reverse_foldl {α β : Type} {f g : β → α → β} {l : List α}
    (h : ∀ a ∈ l, ∀ x, g (f x a) a = x) (x : β) : l.reverse.foldl g (l.foldl f x) = x := by
  induction l generalizing x with
  | nil => rfl
  | cons a l ih =>
    obtain ⟨ha, hl⟩ := List.forall_mem_cons.mp h
    rw [List.reverse_cons, List.foldl_concat, List.foldl_cons, ih hl, ha]

/-- Settles O46: the key additions cancel, S undoes itself, and the rounds of DEC take back those of ENC in reverse order. -/
theorem roundTrip : Obligations.RoundTrip := by
  intro P hrt hS key X
  have hsub := (subBlock_involutive_iff P).mpr hS
  have hrounds (Y : Block) :
      [8, 7, 6, 5, 4, 3, 2].foldl (irtRound P key) ([2, 3, 4, 5, 6, 7, 8].foldl (rtRound P key) Y) = Y := by
    refine foldl_reverse_foldl (l := [2, 3, 4, 5, 6, 7, 8]) (fun r hr Y => ?_) Y
    have hrange : ∀ r ∈ [2, 3, 4, 5, 6, 7, 8], 2 ≤ r ∧ r ≤ 8 := by decide
    obtain ⟨hmin, hmax⟩ := hrange r hr
    exact hrt Y _ r hmin hmax
  rw [eskResult_eq_calcKey, dskResult_eq_calcKey, encResult_startKey, decResult_startKey,
    Block.xor_xor_cancel, hsub, hrounds, Block.xor_xor_cancel]

end Sys2Proof.Machine
end

section
/-! PROOFS. The drivers as single functions: the walk of APPLY and ADVANCE on the machine (43_cipher_drivers.md R157, R160, R163, R167). -/

namespace Sys2Proof.Machine

open Sys2Proof.Config (Params)

/-! The functions of R160 and R167 in one form. -/

/-- One round of a driver on BLK and KS: APPLY, then ADVANCE. -/
def driverRound (P : Params) (c : SeqCommand) (x : Block × KeyState) (r : Nat) : Block × KeyState :=
  (c.applyBlock P x.1 (currentBlock r x.2) r, walkStep P r x.2)

/-- The `n` round indices from `r` on, in the order the command walks (R130). -/
def roundsFrom (c : SeqCommand) : Nat → BitVec 4 → List Nat
  | 0, _ => []
  | n + 1, r => r.toNat :: roundsFrom c n (nextRound c r)

/-- BLK and KS after a driver. -/
def driverResult (P : Params) (c : SeqCommand) (b : Block) (k : KeyState) : Block × KeyState :=
  let x := (roundsFrom c 7 c.firstRound).foldl (driverRound P c) (c.initBlock P b k.slot0, k)
  (c.finalBlock P x.1 x.2.slot0, x.2)

theorem driverResult_enc (P : Params) : driverResult P .enc = encResult P := rfl

theorem driverResult_dec (P : Params) : driverResult P .dec = decResult P := rfl

/-! The walk. -/

/-- The state the rounds from RND to STOP leave, `n` of them: the driver is at FINAL. -/
def afterRounds (c : SeqCommand) (n : Nat) (s : State) : State :=
  { s with
    blk := ((roundsFrom c n s.rnd).foldl (driverRound params c) (s.blk, s.ks)).1
    ks := ((roundsFrom c n s.rnd).foldl (driverRound params c) (s.blk, s.ks)).2
    ph := .final, rnd := s.stop, dst := .one, rsp := none }

/-- The state APPLY leaves. -/
def afterApply (c : SeqCommand) (s : State) : State :=
  { s with
    blk := c.applyBlock params s.blk (s.ks.get s.dst.other) s.rnd.toNat, ph := .advance, rsp := none }

/-- The rounds RND still has to go to STOP, up or down. -/
def roundsLeft (s : State) : Nat := s.rnd.toNat - s.stop.toNat + (s.stop.toNat - s.rnd.toNat)

/-- APPLY and ADVANCE are a round of R160 or R167: DST is the parity of RND, so they read and write the rule's slots (R126). -/
theorem driverRound_of_walkOk {c : SeqCommand} {s : State} (hw : walkOk c s = true) :
    driverRound params c (s.blk, s.ks) s.rnd.toNat =
      ((afterApply c s).blk, xstep params s.dst s.rnd.toNat s.ks) := by
  obtain ⟨-, -, -, hdst⟩ := walkOk_iff.mp hw
  rw [driverRound, currentBlock_eq_get, walkStep_eq_xstep, ← hdst]
  rfl

theorem roundsLeft_advance {c : SeqCommand} {s : State} (hw : walkOk c s = true) {n : Nat}
    (hn : roundsLeft s = n + 1) : roundsLeft (advance params c s) = n := by
  unfold roundsLeft at hn
  have hne : s.rnd ≠ s.stop := by rintro he; rw [he] at hn; omega
  obtain ⟨hup, hdown⟩ := walkOk_bounds hw
  rw [advance_more params c s hne, nextRound_eq]
  by_cases hc : c = .dec
  · obtain ⟨hmin, hstop⟩ := hdown hc
    simp only [hc, if_true, roundsLeft]
    bv_omega
  · obtain ⟨hmax, hstop⟩ := hup hc
    simp only [hc, if_false, roundsLeft]
    bv_omega

/-- A round on the machine takes two steps, both with the driver in flight. -/
theorem round_completesIn {c : SeqCommand} (hd : c.isDriver = true) {s t : State} {n : Nat}
    (hp : s.ph = .apply) (hh : hostHolds s = true) (hop : s.op = c.opcode) (hw : walkOk c s = true)
    (ht : CompletesIn n (advance params c (afterApply c s)) t) : CompletesIn (n + 2) s t := by
  have hr : s.rnd.toNat ≤ 8 := by
    obtain ⟨hr, -⟩ := rangesOk_iff.mp (rangesOk_of_walkOk hop hw)
    exact hr
  exact completesIn_succ (by simp [hp, Phase.busy]) (step_apply hd hh hop hp hr)
    (completesIn_succ rfl (step_advance (s := afterApply c s) rfl hh hop hr) ht)

/-- The state the last round leaves (R130). -/
theorem advance_last_afterApply {c : SeqCommand} (hd : c.isDriver = true) {s : State}
    (hw : walkOk c s = true) (he : s.rnd = s.stop) :
    advance params c (afterApply c s) = afterRounds c 1 s := by
  have hdst : s.dst.other = .one := by
    obtain ⟨-, -, hstop, hdst⟩ := walkOk_iff.mp hw
    rw [hdst, he, hstop]
    rcases isDriver_iff.mp hd with rfl | rfl <;> rfl
  rw [advance_last_driver params c (afterApply c s) he (isDriver_iff.mp hd), afterRounds, roundsFrom,
    roundsFrom, List.foldl_cons, List.foldl_nil, driverRound_of_walkOk hw]
  simp only [afterApply, hdst, he]

/-- A round that is not the last, and then those after it. -/
theorem afterRounds_advance {c : SeqCommand} {s : State} (hw : walkOk c s = true)
    (hne : s.rnd ≠ s.stop) (n : Nat) :
    afterRounds c n (advance params c (afterApply c s)) = afterRounds c (n + 1) s := by
  rw [advance_more params c (afterApply c s) hne, afterRounds, afterRounds, roundsFrom,
    List.foldl_cons, driverRound_of_walkOk hw]
  rfl

/-- From APPLY a driver takes the rounds from RND to STOP, two steps each, and is at FINAL. -/
theorem rounds_completesIn {c : SeqCommand} (hd : c.isDriver = true) (n : Nat) {s t : State} {m : Nat}
    (hp : s.ph = .apply) (hh : hostHolds s = true) (hop : s.op = c.opcode) (hw : walkOk c s = true)
    (hn : roundsLeft s = n) (ht : CompletesIn m (afterRounds c (n + 1) s) t) :
    CompletesIn (m + 2 * (n + 1)) s t := by
  induction n generalizing s with
  | zero =>
    have he : s.rnd = s.stop := by unfold roundsLeft at hn; bv_omega
    rw [← advance_last_afterApply hd hw he] at ht
    exact round_completesIn hd hp hh hop hw ht
  | succ n ih =>
    have hne : s.rnd ≠ s.stop := by rintro he; simp [roundsLeft, he] at hn
    rw [← afterRounds_advance hw hne] at ht
    have hmore := advance_more params c (afterApply c s) hne
    refine round_completesIn hd hp hh hop hw (ih ?_ ?_ ?_ ?_ ?_ ht)
    · rw [hmore]
      rcases isDriver_iff.mp hd with rfl | rfl <;> rfl
    · rw [hmore]; exact hh
    · rw [hmore]; exact hop
    · exact walkOk_advance (s := afterApply c s) hw hne
    · exact roundsLeft_advance (s := afterApply c s) hw hn

/-! The drivers as functions. -/

/-- The state a driver leaves. -/
def afterDriver (c : SeqCommand) (s : State) : State :=
  { s with
    blk := (driverResult params c s.blk s.ks).1, ks := (driverResult params c s.blk s.ks).2,
    ph := .idle, rnd := BitVec.ofNat 4 c.stop, stop := BitVec.ofNat 4 c.stop, dst := .one,
    rsp := some (.done .empty) }

/-- From INIT a driver completes in 16 steps: INIT, seven rounds of two, FINAL (R165, R253). -/
theorem driver_completesIn {c : SeqCommand} (hd : c.isDriver = true) {s : State} (hp : s.ph = .init)
    (hh : hostHolds s = true) (hop : s.op = c.opcode) : CompletesIn 16 s (afterDriver c s) := by
  have hinit := microInit_driver params hd s
  have hw := microInit_walkOk params c s
  have hs := step_init hp hh hop
  rw [hinit] at hw hs
  refine completesIn_succ (by simp [hp, Phase.busy]) hs
    (rounds_completesIn hd 6 rfl hh hop hw ?_ (completesIn_succ rfl
      (step_final hd hh hop rfl) (completesIn_zero _)))
  rcases isDriver_iff.mp hd with rfl | rfl <;> rfl

/-- Settles O41: the driver's walk on the machine, and its rounds from the windows of the schedule. -/
theorem encAsFunction : Obligations.EncAsFunction := by
  refine ⟨fun s hp hh hop => ?_, fun P key k hk => ?_⟩
  · rw [← driverResult_enc]
    exact driver_completesIn (c := .enc) rfl hp hh hop
  have hlast : calcKey P 0 8 key = ⟨scheduleBlock P key 8, scheduleBlock P key 7⟩ :=
    calcKey_of_even P key rfl
  obtain rfl : k = calcKey P 0 1 key := hk.trans (calcKey_of_odd P key rfl).symm
  refine ⟨fun r hmin hmax => ?_, fun b => ?_, fun b => ?_⟩
  · obtain ⟨n, rfl⟩ : ∃ n, r = 1 + n + 1 := ⟨r - 2, by omega⟩
    rw [show 1 + n + 1 - 2 = n by omega, foldl_walkStep_forward, currentBlock_forward]
    rfl
  · rw [encResult_startKey, hlast]
  · rw [encResult_startKey, hlast]
    rfl

/-- Settles O42: the driver's walk on the machine, and its rounds from the windows of the schedule. -/
theorem decAsFunction : Obligations.DecAsFunction := by
  refine ⟨fun s hp hh hop => ?_, fun P key k hk => ?_⟩
  · rw [← driverResult_dec]
    exact driver_completesIn (c := .dec) rfl hp hh hop
  have hlast : calcKey P 0 1 key = ⟨scheduleBlock P key 0, scheduleBlock P key 1⟩ :=
    calcKey_of_odd P key rfl
  obtain rfl : k = calcKey P 0 8 key := hk.trans (calcKey_of_even P key rfl).symm
  refine ⟨fun r hmin hmax => ?_, fun b => ?_, fun b => ?_⟩
  · obtain ⟨n, rfl⟩ : ∃ n, r = n + 1 := ⟨r - 1, by omega⟩
    rw [foldl_walkStep_backward P key (by omega), show 8 - (8 - (n + 1)) = n + 1 by omega,
      currentBlock_backward]
    rfl
  · rw [decResult_startKey, hlast]
  · rw [decResult_startKey, hlast]
    rfl

end Sys2Proof.Machine
end

section
/-! PROOFS. The reference collaborators: the diffusion is linear and undoes itself, so IRT undoes RT (45_collaborators.md R192, R195, R198). -/

namespace Sys2Proof

/-! Bytes and Blocks as sums of single bits. -/

/-- A set of bytes closed under addition is all of them when the eight bits are in it. -/
theorem byte_of_bits {p : Byte → Prop} (hadd : ∀ a b, p a → p b → p (a ^^^ b))
    (hbit : ∀ k < 8, p (1#8 <<< k)) (b : Byte) : p b := by
  have hzero : p 0 := by simpa using hadd _ _ (hbit 0 (by decide)) (hbit 0 (by decide))
  have hpart (k : Nat) (hk : k < 8) : p (if b.getLsbD k then 1#8 <<< k else 0) := by
    split
    · exact hbit k hk
    · exact hzero
  have hsum : ∀ b : Byte, (List.range 8).foldl
      (fun a k => a ^^^ if b.getLsbD k then 1#8 <<< k else 0) 0 = b := by decide +kernel
  rw [← hsum b]
  exact List.foldlRecOn _ _ hzero fun a ha k hk => hadd _ _ ha (hpart k (List.mem_range.mp hk))

/-- The Block with byte `b` at index `i` and 0 elsewhere. -/
def Block.single (i : Nat) (b : Byte) : Block := Block.ofFn fun j => if j = i then b else 0

theorem Block.single_xor (i : Nat) (a b : Byte) :
    Block.single i (a ^^^ b) = (Block.single i a).xor (Block.single i b) := by
  ext1 <;> simp only [Block.single, Block.ofFn, Block.xor] <;> split <;> simp

theorem Block.eq_xor_singles (X : Block) :
    X = (((((((Block.single 0 X.b0).xor (.single 1 X.b1)).xor (.single 2 X.b2)).xor
      (.single 3 X.b3)).xor (.single 4 X.b4)).xor (.single 5 X.b5)).xor (.single 6 X.b6)).xor
      (.single 7 X.b7) := by
  simp [Block.single, Block.ofFn, Block.xor]

/-- A set of Blocks closed under addition is all of them when the 64 bits are in it. -/
theorem block_of_bits {p : Block → Prop} (hadd : ∀ X Y, p X → p Y → p (X.xor Y))
    (hbit : ∀ i < 8, ∀ k < 8, p (Block.single i (1#8 <<< k))) (X : Block) : p X := by
  have hbyte (i : Nat) (hi : i < 8) (b : Byte) : p (Block.single i b) :=
    byte_of_bits (p := fun b => p (Block.single i b))
      (fun a b ha hb => Block.single_xor i a b ▸ hadd _ _ ha hb) (hbit i hi) b
  rw [X.eq_xor_singles]
  iterate 7 refine hadd _ _ ?_ (hbyte _ (by decide) _)
  exact hbyte _ (by decide) _

end Sys2Proof

namespace Sys2Proof.Machine

open Sys2Proof.Config (Params)

/-! The product in GF(2^8) is linear in its first factor, so the diffusion is linear. -/

theorem xtime_xor (a b : Byte) : xtime (a ^^^ b) = xtime a ^^^ xtime b := by
  have hcarry : ∀ p q : Bool, (if (p ^^ q) = true then (0x1D : Byte) else 0) =
      (if p = true then 0x1D else 0) ^^^ (if q = true then 0x1D else 0) := by decide
  simp only [xtime, BitVec.shiftLeft_xor_distrib, BitVec.getLsbD_xor, hcarry]
  ac_rfl

theorem gmulBits_xor (n : Nat) (a b c : Byte) :
    gmulBits n (a ^^^ b) c = gmulBits n a c ^^^ gmulBits n b c := by
  induction n generalizing a b c with
  | zero => simp [gmulBits]
  | succ n ih =>
    rw [gmulBits, gmulBits, gmulBits, xtime_xor, ih]
    split
    · ac_rfl
    · simp

theorem diffuseByte_xor (X Y : Block) (j : Nat) :
    diffuseByte (X.xor Y) j = diffuseByte X j ^^^ diffuseByte Y j := by
  simp only [diffuseByte, Block.xor, gmul, gmulBits_xor]
  ac_rfl

theorem diffuseRef_xor (X Y : Block) : diffuseRef (X.xor Y) = (diffuseRef X).xor (diffuseRef Y) := by
  simp only [diffuseRef, Block.ofFn, diffuseByte_xor]
  rfl

/-! The inverse. -/

/-- The matrix of R198 is its own inverse: by linearity it is enough to see that on single bits. -/
theorem diffuseRef_diffuseRef (X : Block) : diffuseRef (diffuseRef X) = X := by
  refine block_of_bits (p := fun X => diffuseRef (diffuseRef X) = X) (fun X Y hX hY => ?_) ?_ X
  · rw [diffuseRef_xor, diffuseRef_xor, hX, hY]
  · decide +kernel

theorem sInvol_reference : SInvol reference := by
  obtain ⟨-, hS, -⟩ := referenceSubstitution
  exact hS

/-- IRT takes back the key addition, the diffusion and the substitution of RT (R195). -/
theorem rtInv_reference : RtInv reference := by
  intro X K r _ _
  change subBlock reference (diffuseRef (((diffuseRef (subBlock reference X)).xor K).xor K)) = X
  rw [Block.xor_xor_cancel, diffuseRef_diffuseRef, (subBlock_involutive_iff _).mpr sInvol_reference]

end Sys2Proof.Machine
end

section
/-! PROOFS. The round trip on the machine: the commands of R168, run one after another (43_cipher_drivers.md R168, 70_reset_and_hazards.md R253). -/

namespace Sys2Proof.Machine

/-- The core is idle before these host actions, with this key state and this Block loaded, each as far as one is named. -/
structure Ready (l : List HostAction) (k : Option KeyState) (b : Option Block) (s : State) : Prop where
  ph : s.ph = .idle
  host : s.host = l
  key : ∀ x ∈ k, s.kv = true ∧ s.ks = x
  block : ∀ x ∈ b, s.bv = true ∧ s.blk = x

theorem ready_of_idle {s : State} (hp : s.ph = .idle) : Ready s.host none none s :=
  ⟨hp, rfl, by simp, by simp⟩

/-- `n` steps from `s` reach a state with `Q`. -/
def Reaches (n : Nat) (Q : State → Prop) (s : State) : Prop := ∃ t, stateAfter n s = some t ∧ Q t

theorem Reaches.trans {m n : Nat} {Q R : State → Prop} {s : State} (h : Reaches m Q s)
    (hQ : ∀ t, Q t → Reaches n R t) : Reaches (m + n) R s := by
  obtain ⟨t, ht, hq⟩ := h
  obtain ⟨u, hu, hr⟩ := hQ t hq
  exact ⟨u, (stateAfter_add ht n).trans hu, hr⟩

theorem reaches_one {Q : State → Prop} {s t : State} (h : step s = .next t) (hQ : Q t) :
    Reaches 1 Q s := ⟨t, stateAfter_succ h 0, hQ⟩

section
variable {l : List HostAction} {k : KeyState} {b X : Block} {ko : Option KeyState} {bo : Option Block}
  {s : State}

/-- A presented command runs in the state with the rest of the host's list (R80). -/
theorem Ready.step_present {i : Instr} {p : Payload} (h : Ready (present i p :: l) ko bo s)
    (hi : i.wellFormed = true) : step s = exec i { s with host := l, wdata := p.bus } :=
  stepRunsPresentedCommand s _ _ l i h.host h.ph (decodeOfEncode i hi)

/-- LDK puts its payload in KS (R180). -/
theorem ready_ldk (h : Ready (present .ldk (.keyState k) :: l) ko bo s) :
    Reaches 1 (Ready l (some k) bo) s := by
  refine reaches_one ((h.step_present rfl).trans (exec_of_ready h.ph nofun nofun nofun)) ?_
  exact ⟨h.ph, rfl, by rintro _ ⟨⟩; exact ⟨rfl, inKeyState_bus k⟩, h.block⟩

/-- LDB puts its payload in BLK (R181). -/
theorem ready_ldb (h : Ready (present .ldb (.block X) :: l) ko bo s) :
    Reaches 1 (Ready l ko (some X)) s := by
  refine reaches_one ((h.step_present rfl).trans (exec_of_ready h.ph nofun nofun nofun)) ?_
  exact ⟨h.ph, rfl, h.key, by rintro _ ⟨⟩; exact ⟨rfl, inBlock_bus X⟩⟩

/-- RDB answers BLK and changes nothing (R183). -/
theorem ready_rdb (h : Ready (present .rdb .empty :: l) ko (some b) s) :
    Reaches 1 (fun t => Ready l ko (some b) t ∧ t.rsp = some (.done (.block b))) s := by
  obtain ⟨hbv, hblk⟩ := h.block b rfl
  refine reaches_one ((h.step_present rfl).trans (exec_of_ready h.ph nofun nofun fun _ => hbv)) ?_
  exact ⟨⟨h.ph, rfl, h.key, h.block⟩, by rw [← hblk]; rfl⟩

/-- A derivation takes the XSTEPs of its rounds on KS (R147). -/
theorem ready_derivation {c : SeqCommand} (hc : c.isDriver = false)
    (h : Ready (present c.instr .empty :: l) (some k) bo s)
    (hl : ∀ t : State, hostHolds { t with host := l } = true) :
    Reaches (c.stop + 1 - c.least + 1 + 1) (Ready l (some (calcKey params c.least c.stop k)) bo) s := by
  obtain ⟨hkv, rfl⟩ := h.key k rfl
  have hrun := stateAfter_present_derivation hc l h.ph hkv (hl s)
  rw [← h.host] at hrun
  exact ⟨_, hrun, rfl, rfl, by rintro _ ⟨⟩; exact ⟨hkv, rfl⟩, h.block⟩

/-- A driver takes its function on BLK and KS (R160, R167), in one step to start and 16 from INIT on. -/
theorem ready_driver {c : SeqCommand} (hd : c.isDriver = true)
    (h : Ready (present c.instr .empty :: l) (some k) (some b) s)
    (hl : ∀ t : State, hostHolds { t with host := l } = true) :
    Reaches 17 (Ready l (some (driverResult params c b k).2) (some (driverResult params c b k).1)) s := by
  obtain ⟨hkv, rfl⟩ := h.key k rfl
  obtain ⟨hbv, rfl⟩ := h.block b rfl
  have hstart := step_of_present_sequenced (c := c) l h.ph (loadedFor_iff.mpr ⟨hkv, fun _ => hbv⟩)
  rw [← h.host] at hstart
  obtain ⟨hend, -⟩ := driver_completesIn hd
    (s := startSequence c.opcode { s with host := l, wdata := 0 }) rfl (hl s) rfl
  exact ⟨_, (stateAfter_succ hstart 16).trans hend, rfl, rfl, by rintro _ ⟨⟩; exact ⟨hkv, rfl⟩,
    by rintro _ ⟨⟩; exact ⟨hbv, rfl⟩⟩

/-- `LDK K ; ESK ; LDB X ; ENC` encrypts X under K. -/
theorem ready_encrypt
    (h : Ready (present .ldk (.keyState k) :: present .esk .empty :: present .ldb (.block X) ::
      present .enc .empty :: l) ko bo s)
    (hl : ∀ t : State, hostHolds { t with host := l } = true) :
    Reaches 23 (Ready l (some (encResult params X (eskResult params k)).2)
      (some (encResult params X (eskResult params k)).1)) s := by
  rw [eskResult_eq_calcKey, ← driverResult_enc]
  exact (ready_ldk h).trans fun _ h =>
    (ready_derivation (c := .esk) rfl h fun _ => rfl).trans fun _ h =>
    (ready_ldb h).trans fun _ h => ready_driver (c := .enc) rfl h hl

/-- `LDK K ; DSK ; DEC` decrypts BLK under K. -/
theorem ready_decrypt
    (h : Ready (present .ldk (.keyState k) :: present .dsk .empty :: present .dec .empty :: l) ko
      (some b) s)
    (hl : ∀ t : State, hostHolds { t with host := l } = true) :
    Reaches 29 (Ready l (some (decResult params b (dskResult params k)).2)
      (some (decResult params b (dskResult params k)).1)) s := by
  rw [dskResult_eq_calcKey, ← driverResult_dec]
  exact (ready_ldk h).trans fun _ h =>
    (ready_derivation (c := .dsk) rfl h fun _ => rfl).trans fun _ h =>
    ready_driver (c := .dec) rfl h hl

end

/-- Settles O47: encryption, then decryption, then RDB, and the round trip of R168 with the reference parameters. -/
theorem machineRoundTrip : Obligations.MachineRoundTrip := by
  intro s key X hp
  have hback := roundTrip params rtInv_reference sInvol_reference key X
  obtain ⟨-, hspent⟩ := spentKeyState params key (encResult params X (eskResult params key)).1
  obtain ⟨t, ht, hready, hrsp⟩ :=
    (ready_encrypt (ready_of_idle (s := { s with host := _ }) hp) fun _ => rfl).trans fun _ h =>
      (ready_decrypt h fun _ => rfl).trans fun _ h => ready_rdb (l := []) h
  rw [hback] at hready hrsp
  rw [hspent] at hready
  exact ⟨t, ht, hrsp, hready.ph, (hready.block X rfl).2, (hready.key _ rfl).2⟩

end Sys2Proof.Machine
end

section
/-! PROOFS. Data movement: LDK, LDB, RDK and RDB (44_data_movement.md). -/

namespace Sys2Proof.Machine

/-! The loads. -/

/-- LDK checks nothing and takes its payload from `wdata` (R180). -/
theorem exec_ldk {s : State} (hp : s.ph = .idle) :
    exec .ldk s =
      .next { s with ks := inKeyState s.wdata, kv := true, rsp := some (.done .empty) } :=
  exec_of_ready hp nofun nofun nofun

/-- Settles O17: the lanes of `inKeyState` are the rule's bit ranges, and the example is read off the bus value. -/
theorem ldkLoadsKeyState : Obligations.LdkLoadsKeyState := by
  refine ⟨by decide, fun _ => exec_ldk, fun s hp hd => ?_⟩
  rw [exec_ldk hp, hd]
  rfl

/-- LDB checks nothing and takes its payload from `wdata` (R181). -/
theorem exec_ldb {s : State} (hp : s.ph = .idle) :
    exec .ldb s = .next { s with blk := inBlock s.wdata, bv := true, rsp := some (.done .empty) } :=
  exec_of_ready hp nofun nofun nofun

/-- Lanes 0 to 7 lie in the upper half of the bus. -/
theorem lane_append (high low : BitVec 64) {j : Nat} (hj : j < 8) :
    lane (high ++ low) j = high.extractLsb' (56 - 8 * j) 8 := by
  rw [lane, BitVec.extractLsb'_append_eq_of_le (by omega), show 120 - 8 * j - 64 = 56 - 8 * j by omega]

/-- The lower half of the bus does not enter an 8-byte payload (R54, R181). -/
theorem inBlock_append (high low : BitVec 64) :
    inBlock (high ++ low) = Block.ofFn fun j => high.extractLsb' (56 - 8 * j) 8 := by
  simp [inBlock, lanesBlock, Block.ofFn, lane_append]

/-- Settles O18: the lanes of `inBlock` are the rule's bit ranges, and the example does not see the lower half of the bus. -/
theorem ldbLoadsBlock : Obligations.LdbLoadsBlock := by
  refine ⟨by decide, fun _ => exec_ldb, fun s low hp hd => ?_⟩
  rw [exec_ldb hp, hd, inBlock_append]
  rfl

/-! The reads. -/

/-- RDK of a loaded KS answers it and changes no register (R182). -/
theorem exec_rdk {s : State} (hp : s.ph = .idle) (hkv : s.kv = true) :
    exec .rdk s = .next { s with rsp := some (.done (.keyState s.ks)) } :=
  exec_of_ready hp nofun (fun _ => hkv) nofun

/-- LDK of what RDK drove on `rdata` restores KS, because a key state is read back from its own bus value (R182). -/
theorem exec_ldk_of_exec_rdk {s t u : State} (hs : s.ph = .idle) (hkv : s.kv = true)
    (ht : exec .rdk s = .next t) (hu : u.ph = .idle) (hd : t.rdata = some u.wdata) :
    exec .ldk u = .next { u with ks := s.ks, kv := true, rsp := some (.done .empty) } := by
  rw [exec_rdk hs hkv] at ht
  cases ht
  have hbus : (Payload.keyState s.ks).bus = u.wdata := Option.some.inj hd
  rw [exec_ldk hu, ← hbus, inKeyState_bus]

/-- Settles O19: the two cases of KV by the checks, the restored KS by the lanes of the bus. -/
theorem rdkReadsKeyState : Obligations.RdkReadsKeyState := by
  refine ⟨by decide, fun s hp hkv => exec_of_key_invalid hp nofun rfl hkv,
    fun _ => exec_rdk, fun _ => rfl,
    fun _ _ _ => exec_ldk_of_exec_rdk, fun s hp hkv hks => ?_⟩
  refine ⟨_, exec_rdk hp hkv, congrArg some ?_⟩
  rw [hks]
  decide

/-- RDB of a loaded BLK answers it and changes no register (R183). -/
theorem exec_rdb {s : State} (hp : s.ph = .idle) (hbv : s.bv = true) :
    exec .rdb s = .next { s with rsp := some (.done (.block s.blk)) } :=
  exec_of_ready hp nofun nofun fun _ => hbv

/-- Each bit of the bus is a bit of one of its lanes, lane 15 being the lowest (R54). -/
theorem getLsbD_eq_lane (d : Bus) {i : Nat} (hi : i < 128) :
    d.getLsbD i = (lane d (15 - i / 8)).getLsbD (i % 8) := by
  have hpos : 120 - 8 * (15 - i / 8) + i % 8 = i := by omega
  simp [lane, hpos, Nat.mod_lt]

/-- A payload of at most 8 bytes leaves the lower half of the bus 0 (R54). -/
theorem bus_low_of_bytes_length_le (p : Payload) (hp : p.bytes.length ≤ 8) :
    p.bus.extractLsb' 0 64 = 0 := by
  apply BitVec.eq_of_getLsbD_eq
  intro i hi
  have hlane : lane p.bus (15 - i / 8) = 0 := by
    rw [lane_bus p (by omega), List.getD_eq_default _ _ (by omega)]
  rw [BitVec.getLsbD_extractLsb', Nat.zero_add, getLsbD_eq_lane _ (by omega), hlane]
  simp

/-- Settles O20: the two cases of BV by the checks, the unused lanes by the length of a Block. -/
theorem rdbReadsBlock : Obligations.RdbReadsBlock := by
  refine ⟨by decide, fun s hp hbv => exec_of_blk_invalid hp nofun nofun rfl hbv,
    fun _ => exec_rdb, fun X => ⟨rfl, bus_low_of_bytes_length_le (.block X) le_rfl⟩,
    fun s hp hbv hblk => ?_⟩
  refine ⟨_, exec_rdb hp hbv, congrArg some ?_⟩
  rw [hblk]
  decide

end Sys2Proof.Machine
end

section
/-! PROOFS. The named properties of the reference collaborators: the one remembered vector, and with the facts about diffusion and RT above the obligation (43_cipher_drivers.md R172, 45_collaborators.md R192 to R198). -/

namespace Sys2Proof.Machine

/-- The encrypt start key of the key of vector V1 (95_test_vectors.md 2.4). -/
theorem eskResult_reference_v1 :
    eskResult reference (KeyState.hex 0x80000000000000000000000000000000) =
      KeyState.hex 0x80EE95CEE96968F7EE7435B617E917CF := by decide +kernel

/-- ENC of the all-zero Block from that start key (95_test_vectors.md 2.5). -/
theorem encResult_reference_v1 :
    (encResult reference (Block.hex 0) (KeyState.hex 0x80EE95CEE96968F7EE7435B617E917CF)).1 =
      Block.hex 0x49A4CE32AC190E3F := by decide +kernel

/-- The start key of V1, then its encryption. -/
theorem kat_reference : Kat reference := by
  rw [Kat, eskResult_reference_v1, encResult_reference_v1]

/-- Settles O26: diffusion is a sum of products linear in the Block, its square is the identity because it is so on single bits, IRT then takes back each part of RT, and V1 is computed. -/
theorem referenceCollaborators : Obligations.ReferenceCollaborators :=
  ⟨diffuseRef_xor, diffuseRef_diffuseRef, rtInv_reference, kat_reference⟩

end Sys2Proof.Machine
end

section
/-! PROOFS. The checks at acceptance, fault entry, and the halted state (60_exceptions.md). -/

namespace Sys2Proof.Machine

/-! The checks at acceptance. -/

/-- No command halts the core by its own effect (R220). -/
theorem effectOf_ph_ne_halt (i : Instr) {s : State} (hp : s.ph = .idle) :
    (effectOf i s).ph ≠ .halt := by
  obtain ⟨-, -, -, -, -, -, -, -, hph | hph, -, -⟩ := effectOf_frame i s
  · simp [hph, hp]
  · simp [hph]

/-- With a command in flight a step without `rst` is a micro-step, a wait first taken from the host's list (R254). -/
theorem exists_microStep_of_busy {s t : State} (hb : s.ph.busy = true) (hr : noReset s = true)
    (h : step s = .next t) : ∃ l, microStep params { s with host := l } = .next t := by
  rcases step_cases h with ⟨rest, hh, -⟩ | ⟨w, d, rest, -, hp, -⟩ | ⟨rest, -, ht⟩ | ⟨-, -, ht⟩
  · simp [noReset, hh] at hr
  · simp [hp, Phase.busy] at hb
  · exact ⟨rest, (tick_of_busy (s := { s with host := rest }) hb).symm.trans ht⟩
  · exact ⟨s.host, (tick_of_busy hb).symm.trans ht⟩

/-- Settles O10: the checks one after another at an acceptance, and what a micro-step leaves alone. -/
theorem checkOrder : Obligations.CheckOrder := by
  refine ⟨?_, fun s t hb hr h => ?_⟩
  · rintro s w d rest u hh hp rfl
    refine ⟨fun r hd => ?_, fun i hd => ?_⟩
    · rw [step_of_presented hh hp, acceptWord_of_reserved hd]
    · rw [stepRunsPresentedCommand s w d rest i hh hp hd]
      have hp : ({ s with host := rest, wdata := d } : State).ph = .idle := hp
      refine ⟨fun ⟨r, hi, hr⟩ => exec_of_round_gt hp hi hr, fun hr => ⟨fun hk hkv => ?_, fun hkv =>
        ⟨fun hb hbv => ?_, fun hbv => ⟨_, exec_of_ready hp hr hkv hbv, ?_⟩⟩⟩⟩
      · exact exec_of_key_invalid hp hr hk hkv
      · exact exec_of_blk_invalid hp hr hkv hb hbv
      · obtain ⟨hfault, hfcode, -⟩ := effectOf_frame i { s with host := rest, wdata := d }
        exact ⟨effectOf_ph_ne_halt i hp, hfault, hfcode⟩
  · obtain ⟨l, hm⟩ := exists_microStep_of_busy hb hr h
    obtain ⟨-, -, hfault, hfcode, -⟩ := microStep_frame hm
    exact ⟨microStep_ph hm, hfault, hfcode⟩

/-! Fault entry. -/

/-- An accepted word that halts the core has raised a fault (R221). -/
theorem exists_raiseFault_of_acceptWord {w : CmdWord} {s t : State} (h : acceptWord w s = .next t)
    (ht : t.ph = .halt) : ∃ c, t = raiseFault c s := by
  rcases acceptWord_cases h with ⟨i, -, hx⟩ | ⟨r, -, rfl⟩
  · obtain ⟨hp, ⟨c, -, rfl⟩ | ⟨-, rfl⟩⟩ := exec_cases hx
    · exact ⟨c, rfl⟩
    · exact absurd ht (effectOf_ph_ne_halt i hp)
  · exact ⟨.illegalCmd, rfl⟩

/-- The core does not halt by going on by itself. -/
theorem tick_ph_ne_halt {s t : State} (hs : s.ph ≠ .halt) (h : tick s = .next t) : t.ph ≠ .halt := by
  rcases tick_cases h with ⟨-, rfl⟩ | ⟨-, hm⟩
  · exact hs
  · exact microStep_ph hm

/-- Settles O11: of all steps only the acceptance of a word enters HALT. -/
theorem faultEntry : Obligations.FaultEntry := by
  refine ⟨fun c s => rfl, ⟨rfl, rfl, rfl, rfl⟩, fun s t hs h ht => ?_⟩
  rcases step_cases h with ⟨rest, -, rfl⟩ | ⟨w, d, rest, hh, hp, ha⟩ | ⟨rest, -, hk⟩ | ⟨-, -, hk⟩
  · cases ht
  · obtain ⟨c, rfl⟩ := exists_raiseFault_of_acceptWord ha ht
    exact ⟨hp, rfl, c, w, d, hh, rfl⟩
  · exact absurd ht (tick_ph_ne_halt (s := { s with host := rest }) hs hk)
  · exact absurd ht (tick_ph_ne_halt hs hk)

/-! The halted state. -/

theorem tick_of_halt {s : State} (hp : s.ph = .halt) : tick s = .next { s with rsp := none } :=
  tick_of_quiet (by rw [hp]; rfl)

/-- Settles O12: nothing is accepted, the core goes on by ending the response, and `rst` leads to IDLE. -/
theorem haltedUntilReset : Obligations.HaltedUntilReset := by
  intro s hp
  have hi : s.ph ≠ .idle := by simp [hp]
  refine ⟨by simp [State.cmdReady, hi], fun i => noAcceptanceOutsideIdle i s hi, fun hh => ?_,
    fun rest hh => ?_, fun hf => ?_, fun rest hh => ?_⟩
  · rw [step_of_held hh hi, tick_of_halt hp]
  · rw [step_of_wait hh]
    exact tick_of_halt hp
  · rw [State.status, State.busy, hf, hp]
    rfl
  · exact ⟨_, step_of_reset hh, rfl, rfl, rfl⟩

end Sys2Proof.Machine
end

section
/-! PROOFS. Steps without an acceptance, reset, and the completion of a command in flight (70_reset_and_hazards.md). -/

namespace Sys2Proof.Machine

/-! Steps without an acceptance. -/

/-- Settles O7, by the two cases of a step in which the core goes on by itself. -/
theorem stepWithoutAcceptance : Obligations.StepWithoutAcceptance := by
  refine ⟨fun s hh hb => step_of_busy hb hh, fun s hh hq => ?_, fun s rest hh hq => ?_,
    fun s rest hh hb => ?_⟩
  · rw [step_of_not_accepted (by rw [hostHolds, hh]) (absurd hh), tick_of_quiet hq]
    rfl
  · rw [step_of_wait hh]
    exact tick_of_quiet (s := { s with host := rest }) hq
  · rw [step_of_wait hh]
    exact tick_of_busy (s := { s with host := rest }) hb

/-! Reset. -/

theorem status_applyReset (s : State) : (applyReset s).status = 0 := by
  rw [State.status, State.busy, applyReset_ph, applyReset_fault, applyReset_fcode, applyReset_kv,
    applyReset_bv]
  rfl

/-- Settles O13: RDK and RDB fault after reset because it clears KV and BV. -/
theorem resetInAnyPhase : Obligations.ResetInAnyPhase := by
  intro s rest hh
  exact ⟨_, step_of_reset hh, rfl, rfl, rfl, rfl, rfl, rfl, rfl, rfl, rfl, rfl, status_applyReset _,
    rfl, rfl, rfl, exec_of_key_invalid rfl nofun rfl rfl,
    exec_of_blk_invalid rfl nofun nofun rfl rfl⟩

/-- A step without an acceptance leaves the valid bits alone. -/
theorem tick_valid {s t : State} (h : tick s = .next t) : t.kv = s.kv ∧ t.bv = s.bv := by
  rcases tick_cases h with ⟨-, rfl⟩ | ⟨-, hm⟩
  · exact ⟨rfl, rfl⟩
  · obtain ⟨hkv, hbv, -⟩ := microStep_frame hm
    exact ⟨hkv, hbv⟩

/-- An accepted word clears neither valid bit (R24). -/
theorem acceptWord_keeps_valid {w : CmdWord} {s t : State} (h : acceptWord w s = .next t) :
    (s.kv = true → t.kv = true) ∧ (s.bv = true → t.bv = true) := by
  rcases acceptWord_cases h with ⟨i, -, hx⟩ | ⟨-, -, rfl⟩
  · obtain ⟨-, ⟨c, -, rfl⟩ | ⟨-, rfl⟩⟩ := exec_cases hx
    · exact ⟨id, id⟩
    · obtain ⟨-, -, -, -, -, -, -, -, -, hkv, hbv⟩ := effectOf_frame i s
      exact ⟨hkv, hbv⟩
  · exact ⟨id, id⟩

/-- Going on by itself, a core keeps its valid bits and, if halted, its fault (R222, R254). -/
theorem tick_clears_nothing {s t : State} (h : tick s = .next t) :
    (s.ph = .halt → t.ph = .halt ∧ t.fault = s.fault ∧ t.fcode = s.fcode) ∧
      (s.kv = true → t.kv = true) ∧ (s.bv = true → t.bv = true) := by
  obtain ⟨hkv, hbv⟩ := tick_valid h
  refine ⟨fun hp => ?_, hkv.trans, hbv.trans⟩
  rw [tick_of_halt hp] at h
  cases h
  exact ⟨hp, rfl, rfl⟩

/-- Settles O14: of the steps other than reset, an acceptance is not taken in HALT and no step clears a valid bit. -/
theorem onlyResetClears : Obligations.OnlyResetClears := by
  intro s t hr h
  rcases step_cases h with ⟨rest, hh, -⟩ | ⟨w, d, rest, -, hp, ha⟩ | ⟨rest, -, hk⟩ | ⟨-, -, hk⟩
  · simp [noReset, hh] at hr
  · exact ⟨fun hhalt => by simp [hp] at hhalt,
      acceptWord_keeps_valid (s := { s with host := rest, wdata := d }) ha⟩
  · exact tick_clears_nothing (s := { s with host := rest }) hk
  · exact tick_clears_nothing hk

/-! Every state of the invariant steps. -/

/-- A word accepted in IDLE answers a next state, whatever it decodes to. -/
theorem exists_next_acceptWord (w : CmdWord) {s : State} (hp : s.ph = .idle) :
    ∃ t, acceptWord w s = .next t := by
  cases hd : decode w with
  | command i =>
    rw [acceptWord_of_command hd]
    exact exec_of_idle hp
  | reserved r => exact ⟨_, acceptWord_of_reserved hd s⟩

/-- A core of the invariant can go on by itself. -/
theorem exists_next_tick {s : State} (hi : s.inv = true) : ∃ t, tick s = .next t := by
  cases hb : s.ph.busy with
  | false => exact ⟨_, tick_of_quiet hb⟩
  | true =>
    rw [tick_of_busy hb]
    exact microStep_of_inv hi hb

/-- Settles O51, by what the host does next. -/
theorem neverStuck : Obligations.NeverStuck := by
  intro s hi
  unfold step
  split
  · exact exists_next_tick hi
  · exact exists_next_tick (s := { s with host := _ }) hi
  · exact ⟨_, rfl⟩
  · split
    · exact exists_next_acceptWord _ ‹s.ph = .idle›
    · exact exists_next_tick hi

/-! A command in flight completes. -/

/-- Within `n` steps the command in flight answers `Done([])` in IDLE, with FAULT, the host's list, KV and BV as in `s`. -/
def CompletesWithin (n : Nat) (s : State) : Prop :=
  ∃ m ≤ n, ∃ t, stateAfter m s = some t ∧ t.ph = .idle ∧ t.rsp = some (.done .empty) ∧
    t.fault = s.fault ∧ t.host = s.host ∧ t.kv = s.kv ∧ t.bv = s.bv

theorem completesWithin_mono {m n : Nat} {s : State} (h : CompletesWithin m s) (hn : m ≤ n) :
    CompletesWithin n s := by
  obtain ⟨k, hk, hrun⟩ := h
  exact ⟨k, hk.trans hn, hrun⟩

/-- A micro-step, which changes none of FAULT, the host's list, KV and BV, before a completion. -/
theorem completesWithin_succ {n : Nat} {s t : State} (hb : s.ph.busy = true)
    (hh : hostHolds s = true) (h : step s = .next t) (ht : CompletesWithin n t) :
    CompletesWithin (n + 1) s := by
  rw [step_of_busy hb hh] at h
  obtain ⟨hkv, hbv, hfault, -, -, -, hhost, -⟩ := microStep_frame h
  obtain ⟨m, hm, u, hu, hp, hrsp, hufault, huhost, hukv, hubv⟩ := ht
  exact ⟨m + 1, by omega, u, (stateAfter_succ ((step_of_busy hb hh).trans h) m).trans hu, hp, hrsp,
    hufault.trans hfault, huhost.trans hhost, hukv.trans hkv, hubv.trans hbv⟩

section
variable {c : SeqCommand} {s : State} (hh : hostHolds s = true) (hop : s.op = c.opcode)
include hh hop

/-- From INIT: INIT and at most nine ADVANCEs of a derivation, or the 16 micro-steps of a driver (R253). -/
theorem init_completesWithin (hp : s.ph = .init) : CompletesWithin 16 s := by
  cases hd : c.isDriver with
  | false =>
    obtain ⟨hrun, -⟩ := derivation_completesIn hd hp hh hop
    have hlen : c.stop + 1 - c.least + 1 ≤ 16 := by cases c <;> decide
    exact ⟨_, hlen, _, hrun, rfl, rfl, rfl, rfl, rfl, rfl⟩
  | true =>
    obtain ⟨hrun, -⟩ := driver_completesIn hd hp hh hop
    exact ⟨16, le_rfl, _, hrun, rfl, rfl, rfl, rfl, rfl, rfl⟩

theorem final_completesWithin (hd : c.isDriver = true) (hp : s.ph = .final) : CompletesWithin 1 s :=
  ⟨1, le_rfl, _, stateAfter_succ (step_final hd hh hop hp) 0, rfl, rfl, rfl, rfl, rfl, rfl⟩

/-- From APPLY: at most the seven rounds from 2 to 8, two micro-steps each, and FINAL. -/
theorem apply_completesWithin (hd : c.isDriver = true) (hp : s.ph = .apply) (hw : walkOk c s = true) :
    CompletesWithin 15 s := by
  have hleft : roundsLeft s ≤ 6 := by
    obtain ⟨hmin, hmax, hstop, -⟩ := walkOk_iff.mp hw
    rw [roundsLeft, hstop]
    rcases isDriver_iff.mp hd with rfl | rfl <;>
      simp only [SeqCommand.least, SeqCommand.greatest, SeqCommand.stop] at * <;> omega
  have hfinal := completesIn_succ rfl
    (step_final (s := afterRounds c (roundsLeft s + 1) s) hd hh hop rfl) (completesIn_zero _)
  obtain ⟨hrun, -⟩ := rounds_completesIn hd (roundsLeft s) hp hh hop hw rfl hfinal
  exact ⟨_, by omega, _, hrun, rfl, rfl, rfl, rfl, rfl, rfl⟩

/-- From ADVANCE a derivation has at most the nine rounds from 0 to 8 to go. -/
theorem advance_completesWithin_of_derivation (hd : c.isDriver = false) (hp : s.ph = .advance)
    (hw : walkOk c s = true) : CompletesWithin 9 s := by
  obtain ⟨hup, -⟩ := walkOk_bounds hw
  obtain ⟨hmax, hstop⟩ := hup (by rintro rfl; cases hd)
  obtain ⟨n, hn⟩ := Nat.exists_eq_add_of_le hmax
  obtain ⟨hrun, -⟩ := walk_completesIn hd n hp hh hop hn.symm hstop
  exact ⟨_, by omega, _, hrun, rfl, rfl, rfl, rfl, rfl, rfl⟩

/-- From ADVANCE a driver goes to FINAL or to the APPLY of its next round (R130). -/
theorem advance_completesWithin_of_driver (hd : c.isDriver = true) (hp : s.ph = .advance)
    (hw : walkOk c s = true) : CompletesWithin 16 s := by
  obtain ⟨hr, -⟩ := rangesOk_iff.mp (rangesOk_of_walkOk hop hw)
  have hs := step_advance hp hh hop hr
  refine completesWithin_succ (by simp [hp, Phase.busy]) hh hs ?_
  by_cases he : s.rnd = s.stop
  · rw [advance_last_driver params c s he (isDriver_iff.mp hd)]
    exact completesWithin_mono (final_completesWithin (c := c) hh hop hd rfl) (by omega)
  · have hwt := walkOk_advance (P := params) hw he
    rw [advance_more params c s he] at hwt ⊢
    refine apply_completesWithin hh hop hd ?_ hwt
    rw [phaseAfterAdvance_eq, if_pos (isDriver_iff.mp hd)]

end

/-- From every phase of the invariant in which a command is in flight. -/
theorem inFlight_completesWithin {s : State} (hi : s.inv = true) (hb : s.ph.busy = true)
    (hh : hostHolds s = true) : CompletesWithin 16 s := by
  obtain ⟨-, -, hs⟩ := inv_iff.mp hi
  obtain ⟨c, hop, -⟩ := exists_command_of_busy hs hb
  rcases Phase.busy_iff.mp hb with hp | hp | hp | hp
  · exact init_completesWithin hh hop hp
  · obtain ⟨hd, -, hw⟩ := (sequencerOk_apply hp hop).mp hs
    exact completesWithin_mono (apply_completesWithin hh hop hd hp hw) (by omega)
  · obtain ⟨-, hw⟩ := (sequencerOk_advance hp hop).mp hs
    cases hd : c.isDriver with
    | false =>
      exact completesWithin_mono (advance_completesWithin_of_derivation hh hop hd hp hw) (by omega)
    | true => exact advance_completesWithin_of_driver hh hop hd hp hw
  · obtain ⟨hd, -⟩ := (sequencerOk_final hp hop).mp hs
    exact completesWithin_mono (final_completesWithin hh hop hd hp) (by omega)

/-- Settles O52: the bound phase by phase, and FAULT 0 because the core is not halted. -/
theorem inFlightCompletes : Obligations.InFlightCompletes := by
  intro s hi hb hh
  obtain ⟨n, hn, t, hrun, hp, hrsp, hfault, hhost, hkv, hbv⟩ := inFlight_completesWithin hi hb hh
  have hs : s.ph ≠ .halt := by rintro hs; simp [hs, Phase.busy] at hb
  obtain ⟨hf, -, -⟩ := inv_iff.mp hi
  obtain ⟨hclear, -⟩ := (faultOk_of_ph_ne_halt hs).mp hf
  exact ⟨n, hn, t, hrun, hp, hrsp, hfault.trans hclear, hhost, hkv, hbv⟩

end Sys2Proof.Machine
end
